-- ==== Sys2Proof/Word.lean ====
section
/-!
DEFINITION. The word types of the QX24 and their plainest conversions (R1, R2, R110).
-/
namespace Sys2Proof

/-- A 64-bit scalar register value (R110). -/
abbrev Word := BitVec 64

/-- One byte. -/
abbrev Byte := BitVec 8

/-- The 2 KiB of one tile register, byte 0 in bits 7..0 (R1, R19). -/
abbrev TileBits := BitVec 16384

/-- The 4 KiB of one accumulator (R19). -/
abbrev AccBits := BitVec 32768

end Sys2Proof
end

