-- ==== Sys2Proof/Config.lean ====
section
/-!
DEFINITION. What an implementation fixes, and the free values: the manual gives each of these an existence and no
value, so each is a constant without a body and nothing can be proved of its value (log 4).
-/
namespace Sys2Proof.Config

/-- REV.CODE, "Part" at reset (R323): the revision code of the part. UNVERIFIED value, log 7; safe. -/
opaque revCode : BitVec 32

/-- The SHAKE256 digest measured for firmware image u: 0 management, 1 to 24 the compute dies, 25 to 28 the I/O
dies (R410). Free, log 4; safe. -/
opaque firmwareDigest : Nat → BitVec 512

/-- The module's identity public key (R410). Free, log 4; safe. -/
opaque identityKey : BitVec 15616

/-- The ML-DSA-65 signature by the identity key over a report's first 1,920 bytes (R410). Free, log 4; safe. -/
opaque identitySignature : List Byte → BitVec 26472

/-- The vendor's signature over the identity key (R410). Free, log 4; safe. -/
opaque vendorSignature : BitVec 26472

/-- Whether an Airufold port reaches a module of the domain: how modules are cabled (R321). Free, log 4; safe. -/
opaque portReaches : Nat → Nat → Bool

/-- A free choice, drawn with the counter State.freeCtr: which byte a racing per-engine copy reads (R205).
Free, log 4; safe. -/
opaque freeChoice : Nat → Nat

/-- The largest gate that keeps a die within a limit, given the die, the limit in milliwatts and a draw (R331).
The manual gives no power model. Free, log 4; safe. -/
opaque gateWithin : Nat → Nat → Nat → Nat

/-- The cause code of the record that re-admission step n writes when it fails, other than the measurement's (R406).
Free, log 4; safe. -/
opaque readmitCause : Nat → BitVec 8

/-- What a configuration read of a partition's function returns at a register, given what was last written there (R327). The manual lays the space out no
further than PCI Express. Free, log 4; safe. -/
opaque configWord : Nat → Nat → Option (BitVec 32) → BitVec 32

/-- The SHAKE256 digest of the vendor's root public key in the fuses (R326). Free, log 4; safe. -/
opaque rootDigest : BitVec 512

/-- Byte n of the snapshot-latch region of a save record, in the layout REV fixes (R297). Free, log 4; safe. -/
opaque latchByte : Nat → Byte

end Sys2Proof.Config
end

