-- ==== Sys2Proof/Syntax.lean ====
section
/-!
DEFINITION. The instruction set: one constructor per row of the opcode table. Rows with a 32-bit word carry its
fields (R96 to R100, R188); tile rows carry the slot of a control word (R87); the machine's own events carry the
agent they concern and, where the event comes from outside the device, what arrives (95_what_each_step_holds).
-/
namespace Sys2Proof

/-- The two register clusters of an engine (R19); VA acts on A and VB on B (R89). -/
inductive Cluster where
  | a | b
  deriving DecidableEq, Repr

/-- The fields of a 64-bit control-word slot other than its opcode and its reserved bits (R87). A register field
holds the rotate flag in bit 6 and the number in bits 5..0. -/
structure Slot where
  fill : BitVec 4
  lit : BitVec 3
  md : BitVec 5
  sat : BitVec 1
  rm : BitVec 2
  kind : BitVec 3
  srcc : BitVec 7
  srcb : BitVec 7
  srca : BitVec 7
  dst : BitVec 7
  sh : BitVec 2
  fmt : BitVec 4
  deriving DecidableEq, Repr

/-- A part that issues bundles: the whole gang or a half of it (R48), or the thread of an Ochre core (R209). -/
inductive PartRef where
  /-- Context ctx of a core; spare names the taken half of a split gang. -/
  | gang (die core ctx : Nat) (spare : Bool)
  /-- Ochre core idx of a die. -/
  | ochre (die idx : Nat)
  deriving DecidableEq, Repr

/-- An uncorrectable error found in an array (R388): array code, word index, and for a scratchpad or an Ochre core's array
the core or Ochre core it lies on. -/
structure ArrayError where
  array : BitVec 8
  index : BitVec 32
  core : Nat
  deriving DecidableEq, Repr

/-- A member of a collective instance that joined in another module (R322): its index, its module, whether its descriptor
agrees, and its source's bytes, none where it failed there. -/
structure CollOutside where
  mem : Nat
  module : Nat
  agrees : Bool
  bytes : Option (List Byte)
  deriving DecidableEq, Repr

/-- What an instance takes before it forms: members of other modules, or some bytes of a member's source (R268, R322). -/
inductive CollStep where
  | outside (l : List CollOutside)
  | read (mem n : Nat)
  deriving DecidableEq, Repr

/-- Some next bytes of one engine of a copy (R268): read ahead, or written. -/
structure CopyPart where
  eng : Nat
  n : Nat
  read : Bool
  deriving DecidableEq, Repr

/-- What of a copy moves now: some next bytes of one engine or, with no part named, all that is left (R205, R268). -/
structure CopyRun where
  cmd : Nat
  part : Option CopyPart
  deriving DecidableEq, Repr

/-- What of an open instance happens now: one step before it forms or, with none named, its joining or forming (R212). -/
structure CollRun where
  inst : Nat
  part : Option CollStep
  deriving DecidableEq, Repr

/-- An inbound posted write: BAR2 offset and the bytes written (R319). -/
structure HostWrite where
  off : Nat
  bytes : List Byte
  deriving DecidableEq, Repr

/-- A request of an outside agent: a read of n bytes, a write, or one of the three PCI Express AtomicOps; from another
module also a scalar atomic by its operation number, and an element of a VATOM or an update of a SCADD; of the host also a
configuration read or write, and of those writes the function's move to D3hot or back to D0 and the enable of MSI-X (R121, R173, R174, R258, R273, R317, R321, R327). -/
inductive HostRequest where
  | read (addr n : Nat)
  | write (addr : Nat) (bytes : List Byte)
  | fetchAdd (addr size : Nat) (v : BitVec 64)
  | swap (addr size : Nat) (v : BitVec 64)
  | cas (addr size : Nat) (cmp v : BitVec 64)
  | amo (op addr size : Nat) (v cmp : BitVec 64)
  | vatom (op fmt addr : Nat) (v : BitVec 64)
  | config (reg : Nat)
  | configWrite (reg : Nat) (v : BitVec 32)
  | power (d3 : Bool)
  | msix (on : Bool)
  deriving DecidableEq, Repr

/-- Why a die is contained (R402). -/
inductive ContainCause where
  | directory | router | watchdog | thermal | linksLost | measurement
  deriving DecidableEq, Repr

/-- What scrubbing finds in a line of HBM, what a read of HBM finds there, and what either finds in a die's L2 copy of it
(R388, R389). -/
inductive ScrubFinding where
  | clean
  | corrected
  | uncorrectable
  | readUncorrectable
  | l2Corrected (die : Nat)
  | l2Uncorrectable (die : Nat)
  deriving DecidableEq, Repr

/-- What the sensors report at the end of a gating interval (R331): inlet and outlet temperature and flow, and the
junction temperature and power of each die from die 0 up. -/
structure ThermalReading where
  tin : Nat
  tout : Nat
  flow : Nat
  junction : List Nat
  dieW : List Nat
  hbmW : List Nat
  deriving DecidableEq, Repr

/-- One bridge window of a partition plan: register number, and its contents (R260). -/
structure WindowPlan where
  reg : Nat
  value : BitVec 128
  deriving DecidableEq, Repr

/-- One partition as management firmware forms it: its dies, its bridge windows, and the groups each of its
boundary links carries toward its lower end (R25, R27, R30). -/
structure PartPlan where
  dies : List Nat
  windows : List WindowPlan
  splits : List (Nat × Nat)
  deriving DecidableEq, Repr

/-- The firmware that bring-up finds (R326): the key carried with it, and each image with its signature, the management
firmware's first and then those of the dies. -/
structure FirmwareSet where
  key : List Byte
  images : List (List Byte × List Byte)
  deriving DecidableEq, Repr

/-- How a stage of bring-up ends: the FAILCODE where it cannot complete, and the firmware found (R325, R326). -/
structure StageEnd where
  fail : Option (BitVec 8)
  fw : FirmwareSet
  deriving DecidableEq, Repr

/-- What management firmware forms: the partitions and, before Ready, the size of the module's domain and its number there
(R30, R321). -/
structure FormPlan where
  parts : List PartPlan
  domain : Option (BitVec 5 × BitVec 5)
  deriving DecidableEq, Repr

inductive Instr where
  /-- ISSUE_SELECT (R290): Each cycle the primary sequencer chooses one candidate context by starvation, streak, priority, stamp and context number, and issues its next bundle. -/
  | issueSelect (die core : Nat)
  /-- BUNDLE_ISSUE (R94): A part issues one bundle: its header flags, words and slots take effect and the part's bundle count advances by one. -/
  | bundleIssue (p : PartRef)
  /-- BANK_SWITCH_QUANTUM (R40): After 4,096 cycles held by one bank while the other was RESIDENT, the slot switches banks. -/
  | bankSwitchQuantum (die core slot : Nat)
  /-- CONTEXT_WAKE (R39): The event a BLOCKED context waits on is satisfied, and the context becomes READY or RESIDENT. -/
  | contextWake (p : PartRef)
  /-- STARTING_COMPLETE (R39): The CWT load and the first overlay of a STARTING context complete, and the context becomes READY or RESIDENT. -/
  | startingComplete (die core ctx : Nat)
  /-- CONTEXT_RETIRE (R55): A DRAINING context's counters, stores and unit commands all finish, so the context becomes EMPTY and its resources return. -/
  | contextRetire (die core ctx : Nat)
  /-- ADD (R113): rd := ra + B. -/
  | add (d a b : BitVec 5) (l : BitVec 3)
  /-- SUB (R113): rd := ra - B. -/
  | sub (d a b : BitVec 5) (l : BitVec 3)
  /-- MUL (R113): rd := the low 64 bits of ra times B. -/
  | mul (d a b : BitVec 5) (l : BitVec 3)
  /-- MULH (R113): rd := the high 64 bits of the signed product of ra and B. -/
  | mulh (d a b : BitVec 5) (l : BitVec 3)
  /-- MULHN (R113): rd := the high 64 bits of the unsigned product of ra and B. -/
  | mulhn (d a b : BitVec 5) (l : BitVec 3)
  /-- DIV (R114): Signed quotient truncated toward zero, with defined edge values. -/
  | div (d a b : BitVec 5) (l : BitVec 3)
  /-- DIVN (R114): Unsigned quotient, with defined edge values. -/
  | divn (d a b : BitVec 5) (l : BitVec 3)
  /-- REM (R114): Signed remainder with the sign of ra. -/
  | rem (d a b : BitVec 5) (l : BitVec 3)
  /-- REMN (R114): Unsigned remainder. -/
  | remn (d a b : BitVec 5) (l : BitVec 3)
  /-- AND (R113): Bitwise AND of ra and B. -/
  | and (d a b : BitVec 5) (l : BitVec 3)
  /-- OR (R113): Bitwise OR of ra and B. -/
  | or (d a b : BitVec 5) (l : BitVec 3)
  /-- XOR (R113): Bitwise XOR of ra and B. -/
  | xor (d a b : BitVec 5) (l : BitVec 3)
  /-- SHL (R113): Shift ra left by B[5:0]. -/
  | shl (d a b : BitVec 5) (l : BitVec 3)
  /-- SHR (R113): Shift ra right logically by B[5:0]. -/
  | shr (d a b : BitVec 5) (l : BitVec 3)
  /-- SHA (R113): Shift ra right arithmetically by B[5:0]. -/
  | sha (d a b : BitVec 5) (l : BitVec 3)
  /-- CLZ (R113): Count the leading zero bits of ra. -/
  | clz (d a : BitVec 5)
  /-- POPC (R113): Count the one bits of ra. -/
  | popc (d a : BitVec 5)
  /-- MIN (R113): Signed minimum of ra and B. -/
  | min (d a b : BitVec 5) (l : BitVec 3)
  /-- MAX (R113): Signed maximum of ra and B. -/
  | max (d a b : BitVec 5) (l : BitVec 3)
  /-- MINN (R113): Unsigned minimum of ra and B. -/
  | minn (d a b : BitVec 5) (l : BitVec 3)
  /-- MAXN (R113): Unsigned maximum of ra and B. -/
  | maxn (d a b : BitVec 5) (l : BitVec 3)
  /-- SEL (R113): rd := ra if the old rd is non-zero, else B. -/
  | sel (d a b : BitVec 5) (l : BitVec 3)
  /-- CMPEQ (R113): rd := 1 if ra equals B, else 0. -/
  | cmpeq (d a b : BitVec 5) (l : BitVec 3)
  /-- CMPNE (R113): rd := 1 if ra differs from B, else 0. -/
  | cmpne (d a b : BitVec 5) (l : BitVec 3)
  /-- CMPLT (R113): Signed less-than compare of ra and B. -/
  | cmplt (d a b : BitVec 5) (l : BitVec 3)
  /-- CMPLE (R113): Signed less-or-equal compare of ra and B. -/
  | cmple (d a b : BitVec 5) (l : BitVec 3)
  /-- CMPLTN (R113): Unsigned less-than compare of ra and B. -/
  | cmpltn (d a b : BitVec 5) (l : BitVec 3)
  /-- CMPLEN (R113): Unsigned less-or-equal compare of ra and B. -/
  | cmplen (d a b : BitVec 5) (l : BitVec 3)
  /-- MOVL (R116): rd := the selected literal, sign-extended from 32 bits. -/
  | movl (d : BitVec 5) (l : BitVec 3)
  /-- MOVL_D (R116): rd := the 64-bit value formed from literals L(j+1) and Lj. -/
  | movlD (d : BitVec 5) (l : BitVec 3)
  /-- LEA (R113): rd := ra + (B << n), for n from 0 to 3. -/
  | lea (d a b : BitVec 5) (l : BitVec 3) (n : BitVec 2)
  /-- ADDI (R115): rd := ra + the sign-extended immediate. -/
  | addi (d a : BitVec 5) (i : BitVec 16)
  /-- ANDI (R115): rd := ra AND the zero-extended immediate. -/
  | andi (d a : BitVec 5) (i : BitVec 16)
  /-- ORI (R115): rd := ra OR the zero-extended immediate. -/
  | ori (d a : BitVec 5) (i : BitVec 16)
  /-- XORI (R115): rd := ra XOR the zero-extended immediate. -/
  | xori (d a : BitVec 5) (i : BitVec 16)
  /-- SHLI (R115): Shift ra left by imm[5:0]. -/
  | shli (d a : BitVec 5) (n : BitVec 6)
  /-- SHRI (R115): Shift ra right logically by imm[5:0]. -/
  | shri (d a : BitVec 5) (n : BitVec 6)
  /-- SHAI (R115): Shift ra right arithmetically by imm[5:0]. -/
  | shai (d a : BitVec 5) (n : BitVec 6)
  /-- CMPLTI (R115): rd := 1 if signed ra is below the sign-extended immediate, else 0. -/
  | cmplti (d a : BitVec 5) (i : BitVec 16)
  /-- LDB (R117): Load a zero-extended byte from global memory. -/
  | ldb (d a : BitVec 5) (la : BitVec 4) (o : BitVec 12)
  /-- LDH (R117): Load a zero-extended halfword from global memory. -/
  | ldh (d a : BitVec 5) (la : BitVec 4) (o : BitVec 12)
  /-- LDW (R117): Load a zero-extended word from global memory. -/
  | ldw (d a : BitVec 5) (la : BitVec 4) (o : BitVec 12)
  /-- LDD (R117): Load a doubleword from global memory. -/
  | ldd (d a : BitVec 5) (la : BitVec 4) (o : BitVec 12)
  /-- LDBS (R117): Load a sign-extended byte from global memory. -/
  | ldbs (d a : BitVec 5) (la : BitVec 4) (o : BitVec 12)
  /-- LDHS (R117): Load a sign-extended halfword from global memory. -/
  | ldhs (d a : BitVec 5) (la : BitVec 4) (o : BitVec 12)
  /-- LDWS (R117): Load a sign-extended word from global memory. -/
  | ldws (d a : BitVec 5) (la : BitVec 4) (o : BitVec 12)
  /-- LOAD_ACQUIRE (R119): Load with acquire at the scope given in the word, with the size code choosing the access. -/
  | loadAcquire (d a : BitVec 5) (la : BitVec 4) (sc sz : BitVec 3) (o : BitVec 6)
  /-- STB (R117): Store a byte to global memory. -/
  | stb (d a : BitVec 5) (la : BitVec 4) (o : BitVec 12)
  /-- STH (R117): Store a halfword to global memory. -/
  | sth (d a : BitVec 5) (la : BitVec 4) (o : BitVec 12)
  /-- STW (R117): Store a word to global memory. -/
  | stw (d a : BitVec 5) (la : BitVec 4) (o : BitVec 12)
  /-- STD (R117): Store a doubleword to global memory. -/
  | std (d a : BitVec 5) (la : BitVec 4) (o : BitVec 12)
  /-- STORE_RELEASE (R120): Store with release at the scope given in the word, with the size code choosing the access. -/
  | storeRelease (d a : BitVec 5) (la : BitVec 4) (sc sz : BitVec 3) (o : BitVec 6)
  /-- AMOADD (R121): Atomic add at the home slice, returning the old value. -/
  | amoadd (d a b : BitVec 5) (la : BitVec 4) (sc : BitVec 3) (o : BitVec 2) (z : BitVec 1)
  /-- AMOFADD (R122): Atomic floating-point add at the home slice, rounded RNE, returning the old value. -/
  | amofadd (d a b : BitVec 5) (la : BitVec 4) (sc : BitVec 3) (o : BitVec 2) (z : BitVec 1)
  /-- AMOAND (R121): Atomic AND at the home slice. -/
  | amoand (d a b : BitVec 5) (la : BitVec 4) (sc : BitVec 3) (o : BitVec 2) (z : BitVec 1)
  /-- AMOOR (R121): Atomic OR at the home slice. -/
  | amoor (d a b : BitVec 5) (la : BitVec 4) (sc : BitVec 3) (o : BitVec 2) (z : BitVec 1)
  /-- AMOXOR (R121): Atomic XOR at the home slice. -/
  | amoxor (d a b : BitVec 5) (la : BitVec 4) (sc : BitVec 3) (o : BitVec 2) (z : BitVec 1)
  /-- AMOMIN (R121): Atomic signed minimum at the home slice. -/
  | amomin (d a b : BitVec 5) (la : BitVec 4) (sc : BitVec 3) (o : BitVec 2) (z : BitVec 1)
  /-- AMOMAX (R121): Atomic signed maximum at the home slice. -/
  | amomax (d a b : BitVec 5) (la : BitVec 4) (sc : BitVec 3) (o : BitVec 2) (z : BitVec 1)
  /-- AMOMINN (R121): Atomic unsigned minimum at the home slice. -/
  | amominn (d a b : BitVec 5) (la : BitVec 4) (sc : BitVec 3) (o : BitVec 2) (z : BitVec 1)
  /-- AMOMAXN (R121): Atomic unsigned maximum at the home slice. -/
  | amomaxn (d a b : BitVec 5) (la : BitVec 4) (sc : BitVec 3) (o : BitVec 2) (z : BitVec 1)
  /-- AMOSWP (R121): Atomic swap at the home slice. -/
  | amoswp (d a b : BitVec 5) (la : BitVec 4) (sc : BitVec 3) (o : BitVec 2) (z : BitVec 1)
  /-- AMOCAS (R121): Atomic compare-and-swap against rd at the home slice. -/
  | amocas (d a b : BitVec 5) (la : BitVec 4) (sc : BitVec 3) (o : BitVec 2) (z : BitVec 1)
  /-- FENCE (R123): Orders each path's earlier accesses before its later ones at the named scope, holding later bundles that access the ordered paths. -/
  | fence (sc : BitVec 3)
  /-- FENCEX (R124): Orders accesses on path X before later accesses on path Y at the named scope. -/
  | fencex (y x : BitVec 4) (sc : BitVec 3)
  /-- BR (R126): Jump to the target. -/
  | br (t : BitVec 21)
  /-- BRL (R126): Write next_bundle to s31 and jump to the target. -/
  | brl (t : BitVec 21)
  /-- BZ (R126): Jump to the target if sN is zero. -/
  | bz (a : BitVec 5) (t : BitVec 21)
  /-- BNZ (R126): Jump to the target if sN is non-zero. -/
  | bnz (a : BitVec 5) (t : BitVec 21)
  /-- BUK (R46): Uniform branch on a true condition bit; on disagreement it traps or lets the lowest active engine decide and sets UDIS. -/
  | buk (k : BitVec 2) (t : BitVec 21)
  /-- BUNK (R46): Uniform branch on a false condition bit. -/
  | bunk (k : BitVec 2) (t : BitVec 21)
  /-- BDK (R42): Divergent branch on a true condition bit, pushing a divergence entry when the active engines disagree. -/
  | bdk (k j : BitVec 2) (t : BitVec 21)
  /-- BDK_LONG (R47): Divergent branch on a true condition bit that splits the gang onto the spare sequencer when that is allowed. -/
  | bdkLong (k j : BitVec 2) (t : BitVec 21)
  /-- BDNK (R42): Divergent branch on a false condition bit. -/
  | bdnk (k j : BitVec 2) (t : BitVec 21)
  /-- BDNK_LONG (R47): Divergent branch on a false condition bit that may split the gang. -/
  | bdnkLong (k j : BitVec 2) (t : BitVec 21)
  /-- LOOP (R132): Push a loop level with the trip count in sN, or skip the body when the count is zero. -/
  | loop (a : BitVec 5) (t : BitVec 21)
  /-- LOOPS (R133): Read two row pointers, advance sN by 4, and push a loop level with their difference as the trip count. -/
  | loops (a : BitVec 5) (t : BitVec 21)
  /-- JR (R127): Jump to the address held in sA. -/
  | jr (a : BitVec 5)
  /-- JRL (R127): Write next_bundle to sD and jump to the address held in sA. -/
  | jrl (d a : BitVec 5)
  /-- RDFIRST (R129): sD := eN of the lowest-numbered active engine. -/
  | rdfirst (d : BitVec 5) (n : BitVec 4)
  /-- RDLANE (R129): sD := eN of engine B[3:0], or 0 when that engine is not below L. -/
  | rdlane (d : BitVec 5) (n : BitVec 4) (b : BitVec 5) (l : BitVec 3)
  /-- MOVAM (R129): sD := the AM of the issuing part. -/
  | movam (d : BitVec 5)
  /-- SETAM (R130): Set AM to B masked by LM and the top entry's FULL, trapping on an empty result with an empty stack. -/
  | setam (b : BitVec 5) (l : BitVec 3)
  /-- LSTR (R136): Bind a register and a stride to the current or just-pushed loop level. -/
  | lstr (d b : BitVec 5) (l : BitVec 3)
  /-- LBRK (R137): Pop the top loop level without a final stride and transfer control. -/
  | lbrk (b : BitVec 5) (l : BitVec 3)
  /-- BARARV (R139): Add one arrival to barrier n, counted once earlier accesses are performed at die scope. -/
  | bararv (n : BitVec 5)
  /-- BARWT (R139): Block until every other member of the group has arrived as often at barrier n, then acquire at die scope. -/
  | barwt (n : BitVec 5)
  /-- WAITC (R141): Block until wait counter C is at most min(B, 255). -/
  | waitc (c b : BitVec 5) (l : BitVec 3)
  /-- YIELD (R142): Block until a CPYY continuation is taken or B cycles have elapsed. -/
  | yield (b : BitVec 5) (l : BitVec 3)
  /-- YIELD_TIMEOUT (R142): B cycles have elapsed since a YIELD issued, so it resumes at next_bundle. -/
  | yieldTimeout (die core ctx : Nat)
  /-- CONTINUATION_TAKE (R142): A YIELDing context takes the oldest CPYY posting and resumes at its continuation PC. -/
  | continuationTake (die core ctx : Nat)
  /-- SLOTWAIT (R144): Wait on a ring descriptor for a full or an empty slot and return its address with an acquire. -/
  | slotwait (d a : BitVec 5) (sc : BitVec 3) (side : BitVec 1)
  /-- SLOTWAIT_RECHECK (R144): A blocked SLOTWAIT checks its descriptor again when the descriptor's line is written or every 1 µs. -/
  | slotwaitRecheck (die core ctx : Nat)
  /-- SLOTSIG (R145): Atomically add 1 to CCOUNT or PCOUNT with release at the scope given. -/
  | slotsig (a : BitVec 5) (sc : BitVec 3) (side : BitVec 1)
  /-- NOP (R151): No effect. -/
  | nop
  /-- TRAP (R151): After the bundle issues, trap with cause 0xB8 + n and TRAPPC at next_bundle. -/
  | trap (n : BitVec 3)
  /-- RTE (R352): Check the handler's depths, restore the shadow registers and AM, and resume at TRAPPC, taking any pending cause. -/
  | rte
  /-- CSRR (R146): Read a context CSR into sD. -/
  | csrr (d : BitVec 5) (c : BitVec 12)
  /-- CSRW (R146): Write sA into a context CSR, field by field per access type. -/
  | csrw (a : BitVec 5) (c : BitVec 12)
  /-- CSRS (R146): Read a CSR and set the RW bits given by the mask. -/
  | csrs (d a : BitVec 5) (c : BitVec 12)
  /-- CSRC (R146): Read a CSR and clear the RW and RW0C bits given by the mask. -/
  | csrc (d a : BitVec 5) (c : BitVec 12)
  /-- LDCWT (R150): Check FIRST, COUNT and the address, and start loading control words into the context's CWT, serialising decode. -/
  | ldcwt (d a : BitVec 5)
  /-- LDCWT_LOAD_DONE (R150): The LDCWT entries have been read and either written into the CWT, clearing the image tag, or rejected with kind 3 cause 0x12. -/
  | ldcwtLoadDone (die core ctx : Nat)
  /-- LKFETCH (R210): An Ochre thread copies len global bytes into its local store, counted in its wc0. -/
  | lkfetch (d a : BitVec 5) (n : BitVec 8)
  /-- LKDEDUP (R210): Probe the deduplication CAM for a key, inserting it into the lowest free entry on a miss. -/
  | lkdedup (d a : BitVec 5)
  /-- LKDEDUP_CLEAR (R210): Empty the deduplication CAM and write 0 to sD. -/
  | lkdedupClear (d a : BitVec 5)
  /-- LKPOOL (R210): Pool a local source row into a local destination row by add, max or init. -/
  | lkpool (d a b : BitVec 5) (o : BitVec 2) (s : BitVec 4)
  /-- LKHAND (R210): Append local bytes to the request's deliveries, marking the last one with .last. -/
  | lkhand (a b : BitVec 5) (t : BitVec 1)
  /-- MSET (R194): Check and write matrix geometry record mgN from sa and sb. -/
  | mset (a b : BitVec 5) (n : BitVec 4)
  /-- MLOOP (R196): Queue a matrix loop of C K-steps on the accumulator named by mgN, setting the busy bits. -/
  | mloop (a b : BitVec 5) (n : BitVec 4)
  /-- MTERN (R197): Queue a ternary-by-.s8 matrix loop with the operands of MLOOP. -/
  | mtern (a b : BitVec 5) (n : BitVec 4)
  /-- QRES (R200): Write OSB record obN, and with .z zero its range. -/
  | qres (a b : BitVec 5) (z : BitVec 1) (n : BitVec 3)
  /-- QCVT (R201): Queue quantisation of C source values into the range of obN, choosing block scales. -/
  | qcvt (a b : BitVec 5) (s : BitVec 2) (n : BitVec 3)
  /-- QPRUNE (R202): Queue pruning of a dense tile from obN into a sparse tile in scratchpad. -/
  | qprune (a b : BitVec 5) (n : BitVec 3)
  /-- QREL (R203): After earlier Mordant commands naming obN, write obN to zero. -/
  | qrel (n : BitVec 3)
  /-- CPYSET (R204): Check and write tensor layout record tlN from sa and sb. -/
  | cpyset (a b : BitVec 5) (n : BitVec 4)
  /-- CPY (R205): Queue a copy from the tlN side at sa to the tl(N+1) side at sb, per engine or gang-wide with G. -/
  | cpy (a b : BitVec 5) (g : BitVec 1) (n : BitVec 3)
  /-- CPYY (R206): Queue a copy that posts a continuation to the context when it completes. -/
  | cpyy (a b : BitVec 5) (j : BitVec 2) (g : BitVec 1) (n : BitVec 3)
  /-- RINGSET (R207): Make the stream engine the producer or consumer agent of a ring. -/
  | ringset (a b : BitVec 5) (sc side : BitVec 1) (n : BitVec 4)
  /-- GTHR_SP (R208): Start one gather request per acting engine, delivering to its own scratchpad. -/
  | gthrSp (a b : BitVec 5)
  /-- GTHR_OB (R208): Start one gather request per acting engine, delivering to the range of obN. -/
  | gthrOb (a b : BitVec 5) (n : BitVec 3)
  /-- COLL (R212): Join a member to a collective instance through its descriptor. -/
  | coll (a b : BitVec 5)
  /-- TURN (R216): Ask a link controller for a count of lane groups toward the peer, returning a status into sa. -/
  | turn (a b : BitVec 5) (la : BitVec 4)
  /-- LINKST (R217): Return a snapshot of a link's state into sa. -/
  | linkst (a : BitVec 5) (la : BitVec 4)
  /-- NODESET (R218): Configure a work-graph bin, first launching any records it holds. -/
  | nodeset (a b : BitVec 5) (n : BitVec 6)
  /-- NODEPUT (R219): Copy a record into a bin on a die of the partition. -/
  | nodeput (a b : BitVec 5) (la : BitVec 4) (n : BitVec 6)
  /-- LAUNCH (R220): Append a launch record to a launch queue as a package-scope release, returning the write pointer. -/
  | launch (a b : BitVec 5) (la : BitVec 4)
  /-- VADD (R160): Element-wise add, rounded once. -/
  | vadd (cl : Cluster) (f : Slot)
  /-- VSUB (R160): Element-wise subtract. -/
  | vsub (cl : Cluster) (f : Slot)
  /-- VMUL (R160): Element-wise multiply. -/
  | vmul (cl : Cluster) (f : Slot)
  /-- VFMA (R160): Fused a × b + c with one rounding. -/
  | vfma (cl : Cluster) (f : Slot)
  /-- VFMS (R160): Fused a × b − c with one rounding. -/
  | vfms (cl : Cluster) (f : Slot)
  /-- VFNMA (R160): Fused −(a × b) + c with one rounding. -/
  | vfnma (cl : Cluster) (f : Slot)
  /-- VMIN (R160): Element-wise minimum. -/
  | vmin (cl : Cluster) (f : Slot)
  /-- VMAX (R160): Element-wise maximum. -/
  | vmax (cl : Cluster) (f : Slot)
  /-- VABS (R160): Element-wise absolute value. -/
  | vabs (cl : Cluster) (f : Slot)
  /-- VNEG (R160): Element-wise negation. -/
  | vneg (cl : Cluster) (f : Slot)
  /-- VMOV (R62): Copy a tile or half accumulator bit for bit. -/
  | vmov (cl : Cluster) (f : Slot)
  /-- VSEL (R161): Select A where C has any bit set, else B. -/
  | vsel (cl : Cluster) (f : Slot)
  /-- VCMPEQ (R161): Element-wise equality compare into all-ones or all-zeros. -/
  | vcmpeq (cl : Cluster) (f : Slot)
  /-- VCMPLT (R161): Element-wise less-than compare. -/
  | vcmplt (cl : Cluster) (f : Slot)
  /-- VCMPLE (R161): Element-wise less-or-equal compare. -/
  | vcmple (cl : Cluster) (f : Slot)
  /-- VAND (R162): Bitwise AND of tiles. -/
  | vand (cl : Cluster) (f : Slot)
  /-- VOR (R162): Bitwise OR of tiles. -/
  | vor (cl : Cluster) (f : Slot)
  /-- VXOR (R162): Bitwise XOR of tiles. -/
  | vxor (cl : Cluster) (f : Slot)
  /-- VNOT (R162): Bitwise NOT of a tile. -/
  | vnot (cl : Cluster) (f : Slot)
  /-- VSHL (R162): Element-wise shift left. -/
  | vshl (cl : Cluster) (f : Slot)
  /-- VSHR (R162): Element-wise logical shift right. -/
  | vshr (cl : Cluster) (f : Slot)
  /-- VSHA (R162): Element-wise arithmetic shift right. -/
  | vsha (cl : Cluster) (f : Slot)
  /-- VCVT (R163): Convert each element between formats, trapping element-precisely on non-trit source bytes. -/
  | vcvt (cl : Cluster) (f : Slot)
  /-- VCLAMP (R161): Clamp each element between two bounds. -/
  | vclamp (cl : Cluster) (f : Slot)
  /-- VBCAST (R164): Broadcast a row, a column, a literal or an engine scalar across a tile. -/
  | vbcast (cl : Cluster) (f : Slot)
  /-- VIOTA (R164): Fill a tile with element indices plus an optional base. -/
  | viota (cl : Cluster) (f : Slot)
  /-- VRSUM (R165): Sum each row in a fixed pairwise tree into column 0. -/
  | vrsum (cl : Cluster) (f : Slot)
  /-- VCSUM (R165): Sum each column in a fixed pairwise tree into row 0. -/
  | vcsum (cl : Cluster) (f : Slot)
  /-- VRMAX (R165): Maximum of each row into column 0. -/
  | vrmax (cl : Cluster) (f : Slot)
  /-- VCMAX (R165): Maximum of each column into row 0. -/
  | vcmax (cl : Cluster) (f : Slot)
  /-- VTRN (R166): Transpose a tile under the derived shape, trapping when that shape is illegal. -/
  | vtrn (cl : Cluster) (f : Slot)
  /-- LDS (R167): Load rows from the engine's scratchpad, or through the cluster window with .win. -/
  | lds (f : Slot)
  /-- STS (R167): Store rows to scratchpad or through the window, advancing write-generation counters. -/
  | sts (f : Slot)
  /-- LDG (R169): Load rows from global memory sector by sector, counted in wc0. -/
  | ldg (f : Slot)
  /-- STG (R169): Store rows to global memory, counted in wc1. -/
  | stg (f : Slot)
  /-- LDO (R168): Load scaled elements from an OSB range, rounded into the slot's format. -/
  | ldo (f : Slot)
  /-- STO (R168): Store values into an OSB range after dividing by its scales. -/
  | sto (f : Slot)
  /-- GATH (R171): Gather global elements by index tile with sentinel and bound checks. -/
  | gath (f : Slot)
  /-- SCAT (R172): Scatter elements to global addresses by index tile. -/
  | scat (f : Slot)
  /-- SCADD (R173): Pre-combine elements per address in each engine and add them at the home slice in engine order. -/
  | scadd (f : Slot)
  /-- VATOM (R174): Perform one atomic per element at the home slice, optionally returning old values. -/
  | vatom (f : Slot)
  /-- XCP (R176): Copy a tile between the engine's two clusters. -/
  | xcp (f : Slot)
  /-- QXCH (R178): Exchange tile values within a quad by pattern, with fill for unreadable engines. -/
  | qxch (f : Slot)
  /-- GSHF (R179): Shuffle tile values across the gang by mode, with fill for unreadable engines. -/
  | gshf (f : Slot)
  /-- GRED (R180): Reduce element positions over contributing engines in a fixed tree. -/
  | gred (f : Slot)
  /-- GSCAN (R180): Inclusive scan over contributing engines in ascending order. -/
  | gscan (f : Slot)
  /-- GSEG (R181): Segmented inclusive scan over the gang's linear element order. -/
  | gseg (f : Slot)
  /-- CONFD (R182): Write, at each leader position, the multiplicity of its index. -/
  | confd (f : Slot)
  /-- VRCP (R183): Correctly rounded reciprocal. -/
  | vrcp (f : Slot)
  /-- VSQRT (R183): Correctly rounded square root. -/
  | vsqrt (f : Slot)
  /-- VRSQ (R183): Correctly rounded reciprocal square root. -/
  | vrsq (f : Slot)
  /-- VEXP2 (R183): Correctly rounded base-2 exponential. -/
  | vexp2 (f : Slot)
  /-- VLOG2 (R183): Correctly rounded base-2 logarithm. -/
  | vlog2 (f : Slot)
  /-- EEXT (R184): Extract one tile element into an engine scalar. -/
  | eext (f : Slot)
  /-- EINS (R184): Insert an engine scalar's low bits into one tile element. -/
  | eins (f : Slot)
  /-- EADD (R184): Engine scalar add. -/
  | eadd (f : Slot)
  /-- ESUB (R184): Engine scalar subtract. -/
  | esub (f : Slot)
  /-- EMUL (R184): Engine scalar multiply, low 64 bits. -/
  | emul (f : Slot)
  /-- EMOV (R184): Engine scalar move. -/
  | emov (f : Slot)
  /-- ECMP (R184): Compare engine scalars into a condition bit. -/
  | ecmp (f : Slot)
  /-- ANYK (R185): Set a condition bit if any position of a tile has a bit set. -/
  | anyk (f : Slot)
  /-- ALLK (R185): Set a condition bit if every position of a tile has a bit set. -/
  | allk (f : Slot)
  /-- SETSH (R186): Write a shape code into a shape register, trapping on an illegal code in an active lane. -/
  | setsh (f : Slot)
  /-- GLOBAL_LOAD_SECTOR_LAND (R104): A returning sector of a global load is written into its destination, and wc0 falls when the last sector lands. -/
  | globalLoadSectorLand (acc piece : Nat) (early : Bool)
  /-- STORE_PERFORM_AT_HOME (R247): The home slice performs a store or atomic, invalidates other copies, then acknowledges it. -/
  | storePerformAtHome (acc piece : Nat)
  /-- STORE_ACK (R103): The acknowledgement of a store reaches the issuer, completing it and lowering wc1. -/
  | storeAck (acc : Nat)
  /-- ATOMIC_RETURN (R122): An atomic's old value is written to rd or the return element, and wc0 falls. -/
  | atomicReturn (acc : Nat)
  /-- WALK_COMPLETE (R252): A page-table walk ends, filling the L2 TLB or leaving its entry faulted and emitting one fault record. -/
  | walkComplete (die entry : Nat)
  /-- MERGE_ENTRY_RETRY (R252): A miss that found no free merge-table entry retries when one frees, in arrival order. -/
  | mergeEntryRetry (die : Nat)
  /-- FAULT_ANSWER_RETRY (R386): A FANS write with ACTION 0 re-walks the faulted entry and resumes the requesters that pass. -/
  | faultAnswerRetry (part : Nat) (token : BitVec 32)
  /-- FAULT_ANSWER_FAIL (R386): A FANS write with ACTION 1 completes the waiting accesses without the region and delivers their causes. -/
  | faultAnswerFail (part : Nat) (token : BitVec 32)
  /-- TLB_INVALIDATE (R249): A TLBINVC write with GO starts invalidation of covered translations and clears DONE. -/
  | tlbInvalidate (part : Nat) (v : BitVec 64)
  /-- TLB_INVALIDATE_DONE (R249): No TLB holds a covered translation and every access that used one is performed, so DONE becomes 1. -/
  | tlbInvalidateDone (part : Nat)
  /-- MATRIX_COMMAND_START (R195): A matrix command reaches the head of the queue and checks its geometry, faulting without touching the accumulator. -/
  | matrixCommandStart (die core : Nat)
  /-- MATRIX_KSTEP_DONE (R196): One K-step ends and its accumulator elements are written, after the sparse checks of that K-step. -/
  | matrixKstepDone (die core : Nat)
  /-- PREDICTION_WAKE (R240): At the predicted completion P, a context asleep on an accumulator becomes READY with stamp P. -/
  | predictionWake (p : PartRef)
  /-- MORDANT_COMMAND_RUN (R201): Mordant executes a queued command engine by engine and block by block until its writes are done. -/
  | mordantCommandRun (die core : Nat)
  /-- COPY_START (R205): A copy starts and checks its layout totals, faulting with no byte moved. -/
  | copyStart (die core : Nat)
  /-- COPY_COMPLETE (R205): Some bytes move; with no part named the last of them, each global byte acknowledged, so wc2 falls. -/
  | copyComplete (die core : Nat) (run : CopyRun)
  /-- RING_SLOT_SERVE (R207): The stream engine fills or drains one ring slot and updates the counter with release. -/
  | ringSlotServe (die core ring : Nat)
  /-- GATHER_REQUEST_START (R208): A waiting gather request starts on the lowest-numbered idle Ochre core. -/
  | gatherRequestStart (die : Nat)
  /-- LKFETCH_LAND (R210): The bytes of an LKFETCH land in the local store and the Ochre wc0 falls. -/
  | lkfetchLand (acc : Nat)
  /-- OCHRE_THREAD_END (R211): An Ochre thread reaches END or traps, completing or faulting its request and lowering wc3. -/
  | ochreThreadEnd (die idx : Nat)
  /-- COLL_INSTANCE_FORM (R212): All members have joined an instance, which is checked for mismatches and then computed. -/
  | collInstanceForm (run : CollRun)
  /-- COLL_COMPLETE (R213): A member's DST is written and performed at package scope, and its wc2 falls. -/
  | collComplete (inst member : Nat)
  /-- TURN_SERVICE (R312): The link controller takes the next queued request and starts turning groups toward its target. -/
  | turnService (link : Nat)
  /-- GROUP_DRAIN_END (R310): A turning group's committed flits have landed and it enters dead time. -/
  | groupDrainEnd (link : Nat) (failed : Bool)
  /-- DEAD_TIME_END (R310): After 24 ns the group carries traffic in its new direction and the next turn may begin. -/
  | deadTimeEnd (link : Nat) (failed : Bool)
  /-- DWELL_END (R310): 2 µs after the dead time the group may turn again. -/
  | dwellEnd (link group : Nat)
  /-- TURN_BUDGET_WINDOW (R314): A new 21,000-cycle window starts and every context's turn budget renews. -/
  | turnBudgetWindow
  /-- AUTO_WINDOW_END (R315): At the end of a 10 µs window in AUTO, one group turns toward a busy direction. -/
  | autoWindowEnd (link busyUp busyDown : Nat)
  /-- AUTO_ENTRY (R315): After 50 µs with no TURN entered and an empty queue, the controller enters AUTO. -/
  | autoEntry (link : Nat)
  /-- BIN_ACCEPT (R219): A bin accepts a NODEPUT record once a slot is free, and may launch a full batch. -/
  | binAccept (die bin : Nat)
  /-- BIN_TIMER_EXPIRE (R281): TIMER µs after a batch opened, the partial batch launches. -/
  | binTimerExpire (die bin : Nat)
  /-- LAUNCH_QUEUE_TAKE (R279): The distributor reads and checks the next record of a queue and advances RP. -/
  | launchQueueTake (part q : Nat)
  /-- PLACE_GROUP (R284): The front end places a pending cluster group on the first permitted die and core or cluster that fits. -/
  | placeGroup (part : Nat)
  /-- FRONT_END_STARVATION (R282): After 100 µs with its next group unplaced, the earliest launch blocks placements from equal and lower priorities. -/
  | frontEndStarvation (part : Nat)
  /-- PREEMPT_CANDIDATE (R59): A context blocked for more than 20 µs in YIELD, SLOTWAIT or a collective wait becomes a pre-emption candidate. -/
  | preemptCandidate (part : Nat)
  /-- PREEMPT (R292): A PREEMPT write with GO sends a driver pre-emption request for one context or all contexts. -/
  | preempt (part : Nat) (v : BitVec 64)
  /-- HARD_PREEMPT_BOUND (R294): The safe count reaches BOUND with a request pending, so a hard pre-emption freezes the context and latches its results. -/
  | hardPreemptBound (die core ctx : Nat)
  /-- SAVE_RECORD_WRITE (R296): Once wc0, wc1 and the scoreboard drain, the save record is written and the context freed. -/
  | saveRecordWrite (die core ctx : Nat)
  /-- RESUME (R299): A placed saved program waits for its earlier accesses, restores its state and continues, replaying latches. -/
  | resume (die core ctx : Nat)
  /-- CAUSE_ARRIVE (R346): A kind 2, 3 or 4 cause reaches a part's sequencer and is taken at the next bundle boundary or held pending. -/
  | causeArrive (die core ctx : Nat) (ext : Option ArrayError)
  /-- FAULT_RECORD_DRAIN (R359): A held fault record is written once the queue has room and is enabled. -/
  | faultRecordDrain (part : Nat)
  /-- FAULT_MSIX (R359): MSI-X vector 0 is signalled for new records, at most once every 4 µs. -/
  | faultMsix (part : Nat)
  /-- HOST_POSTED_WRITE (R273): An inbound posted write at the I/O die is forwarded in order, waiting for earlier writes on other routes. -/
  | hostPostedWrite (part : Nat) (w : Option HostWrite)
  /-- HOST_NONPOSTED_REQUEST (R273): An inbound read or AtomicOp is forwarded after every earlier posted write is acknowledged. -/
  | hostNonpostedRequest (part : Nat) (r : HostRequest)
  /-- BAR2_ACCESS (R319): A host access through BAR2 is performed uncached at the home slice, bypassing translation. -/
  | bar2Access (part n : Nat)
  /-- SYS_RELEASE_FLUSH_READ (R274): For a .sys release, the I/O die issues one zero-length read after host writes and waits for its completion. -/
  | sysReleaseFlushRead (part : Nat)
  /-- INDIGO_SLOT (R304): In each active slot, a ready transfer moves one sector per engine lane from its source position. -/
  | indigoSlot (die cluster : Nat)
  /-- INDIGO_DELIVERY (R304): An Indigo transfer lands 6 cycles after its slot. -/
  | indigoDelivery (die cluster : Nat)
  /-- ESCAPE_TIMEOUT (R306): A packet waiting 64 fabric cycles moves to its class's escape channel. -/
  | escapeTimeout (die router : Nat)
  /-- ROUTER_POWER_DOWN (R308): A router idle for 512 fabric cycles powers down. -/
  | routerPowerDown (die router : Nat)
  /-- ROUTER_WAKE (R308): A powered-down router wakes for an approaching packet within 24 fabric cycles. -/
  | routerWake (die router : Nat)
  /-- LINK_REPLAY (R397): A CRC error or sequence gap makes the receiver ask for replay from the first missing flit. -/
  | linkReplay (link : Nat) (port : Bool) (group replays crcErrors : Nat)
  /-- AIRUFOLD_PORT_RETIRE (R409): A failed Airufold port is retired, writes 0xA6, and its routes move to other ports. -/
  | airufoldPortRetire (port : Nat)
  /-- DIE_CONTAIN (R403): A die is isolated, its contexts end with 0xA3, its links close and routes are recomputed. -/
  | dieContain (die : Nat) (why : ContainCause)
  /-- DIE_WATCHDOG (R402): A sequencer or unit making no progress for 100 ms with work queued triggers containment. -/
  | dieWatchdog (die : Nat)
  /-- DIE_READMIT (R406): A contained die is reset, verified, trained, poisoned and rejoined to the routes. -/
  | dieReadmit (die : Nat) (stepFailed : Bool)
  /-- PCIE_LINK_DOWN (R408): The host link fails, 0xA7 is written and host accesses fail with 0x4B until retrain. -/
  | pcieLinkDown (part : Nat)
  /-- HOST_COMPLETION_TIMEOUT (R408): A device request to host memory without completion for 50 ms fails with 0x4B. -/
  | hostCompletionTimeout (acc : Nat)
  /-- MEMORY_SCRUB (R388): Scrubbing reads and corrects HBM and L2 lines, poisoning uncorrectable ones with a 0x49 record. -/
  | memoryScrub (line : Nat) (found : ScrubFinding)
  /-- CORRECTED_ERROR_RECORD (R390): A 0xAA record counts corrections per die and array, at most once per millisecond. -/
  | correctedErrorRecord (die array index : Nat)
  /-- EVICTION_ERROR (R394): An eviction finding an uncorrectable dirty line poisons it in HBM and charges 0x4A to the last writer. -/
  | evictionError (line : Nat)
  /-- BRINGUP_STAGE (R325): The module completes one bring-up stage and moves to the next, or to Failed. -/
  | bringupStage (e : StageEnd)
  /-- GATE_UPDATE (R331): Every 100 µs firmware sets each die's issue gate from the cap, coolant and thermal limits. -/
  | gateUpdate (env : ThermalReading)
  /-- DIE_THERMAL_HOLD (R331): A die at 110 °C, or coolant out of limits, is held in reset and its partition charged with 0xA8. -/
  | dieThermalHold (die : Nat)
  /-- PARTITION_FORM (R30): Management firmware forms partitions, bridge windows and CFGFP while affected dies are held in reset. -/
  | partitionForm (plan : FormPlan)
  /-- LQCFG_WRITE (R278): A write to LQCFG sets EN and LOG2SIZE, resetting WP and RP when EN rises and ignoring illegal changes. -/
  | lqcfgWrite (part q : Nat) (v : BitVec 64)
  /-- LQBASE_WRITE (R278): A write to LQBASE takes effect only while EN is 0. -/
  | lqbaseWrite (part q : Nat) (v : BitVec 64)
  /-- LQWP_WRITE (R278): A write to WP is stored, or refused with OVF set when it would overfill the queue. -/
  | lqwpWrite (part q : Nat) (v : BitVec 64)
  /-- FQCFG_WRITE (R358): A write to FQCFG sets EN and size, resetting WP and RP when EN rises and ignoring illegal changes. -/
  | fqcfgWrite (part : Nat) (v : BitVec 64)
  /-- FQRP_WRITE (R358): A write to RP is ignored when it would exceed the queue size. -/
  | fqrpWrite (part : Nat) (v : BitVec 64)
  /-- IMGINV (R277): An IMGINV write with GO starts retirement of an image number and clears DONE. -/
  | imginv (part : Nat) (v : BitVec 64)
  /-- IMGINV_DONE (R277): No context, launch, cache line or CWT tag of the image remains, so DONE becomes 1. -/
  | imginvDone (part : Nat)
  /-- FEATACK_WRITE (R323): A write to FEATACK stores the value ANDed with FEATCAP unless the partition is active, and CFGFP is recomputed. -/
  | featackWrite (part : Nat) (hi : Bool) (v : BitVec 64)
  /-- PWRCAP_WRITE (R332): A write to PWRCAP is clamped to the partition's range and takes effect at the next interval. -/
  | pwrcapWrite (part : Nat) (v : BitVec 64)
  /-- DIECTL_WRITE (R407): A write to DIECTL holds or releases the partition's dies, and clearing a bit starts re-admission. -/
  | diectlWrite (part : Nat) (v : BitVec 64)
  /-- ATTCTL_GO (R410): An ATTCTL write with GO starts an attestation report into the host buffer. -/
  | attctlGo (part : Nat) (v : BitVec 64)
  /-- ATTEST_DONE (R410): The signed attestation report is performed at system scope and DONE becomes 1. -/
  | attestDone (part : Nat)
  /-- MGMT_REGISTER_WRITE (R318): A write to any management register without behaviour of its own stores the value in its RW fields. -/
  | mgmtRegisterWrite (part off : Nat) (v : BitVec 64)
  /-- POWER_GOOD (R325): The board's power-good input asserts and the module starts bring-up at stage 0 with the management ROM running. -/
  | powerGood
  /-- PCIE_LINK_TRAINED (R408): The partition's PCI Express port finishes training or retraining, so host accesses stop failing with 0x4B, held fault records drain and MSI-X resumes. -/
  | pcieLinkTrained (part : Nat)
  /-- AIRUFOLD_ROUTE_GIVE_UP (R409): 1 ms after a port retires, a route's messages still unacknowledged on it are given up and fail with 0x4C, and the route starts sending on its new port. -/
  | airufoldRouteGiveUp (port acc : Nat)
  /-- FANS_IGNORED_WRITE (R385): A FANS write with a reserved ACTION or a reserved bit set is ignored and sets FANST.STALE. -/
  | fansIgnoredWrite (part : Nat) (v : BitVec 64)
  /-- AIRUFOLD_INBOUND_REQUEST (R321): A request from another module of the load-store domain arrives over Airufold and is performed at this module's home slice, with a response returned. -/
  | airufoldInboundRequest (r : HostRequest)
  deriving DecidableEq, Repr

end Sys2Proof
end

