-- ==== Sys2Proof/WellFormed.lean ====
section
/-!
DEFINITION. Which instructions are well formed: no reserved field set, no value a field leaves unnamed (R3, R90,
R96 to R100, R119, R138, R158, R159, R188, R210, R363, R366).
-/
namespace Sys2Proof

/-- What a register field of a slot names (R158). -/
inductive FieldUse where
  /-- unused: zero -/
  | zero
  /-- a tile register, rotate flag allowed -/
  | tile
  /-- a tile register, or with KIND 2 a half accumulator (R88) -/
  | tileOrAcc
  /-- an engine scalar or another four-bit number -/
  | e
  /-- a number below eight (an OSB record) -/
  | obn
  /-- a number below four (a condition bit or a shape register) -/
  | two
  deriving DecidableEq, Repr

/-- When LIT may be set (R90, R158). -/
inductive LitUse where
  | never | withKind1 | optional | withFill3
  deriving DecidableEq, Repr

/-- The fields one opcode uses and the values it takes (R158, R159). -/
structure SlotRule where
  dst : FieldUse
  srca : FieldUse
  srcb : FieldUse
  srcc : FieldUse
  kinds : List Nat
  md : Nat → Bool
  lit : LitUse
  fmt : Nat → Bool
  rm : Nat → Bool
  sat : Nat → Bool
  /-- whether the opcode uses the slot's shape -/
  shape : Bool := true

/-- The float formats F of R159. -/
def isF (f : Nat) : Bool := f < 4

/-- The integer formats I of R159. -/
def isI (f : Nat) : Bool := 6 ≤ f && f ≤ 9

/-- F and I. -/
def isFI (f : Nat) : Bool := isF f || isI f

/-- The whole-byte formats W of R159. -/
def isW (f : Nat) : Bool := f ≤ 9

/-- W and .b1. -/
def isWB (f : Nat) : Bool := isW f || f == 12

/-- Every defined format code (R60). -/
def isFmt (f : Nat) : Bool := f ≤ 12

/-- A format accepted by no one and a rule that forbids a field. -/
def no (_ : Nat) : Bool := false

/-- A field any format may set. -/
def yes (_ : Nat) : Bool := true

/-- Whether a register field holds a value its use allows (R88, R158). -/
def FieldUse.ok (u : FieldUse) (kind : Nat) (v : BitVec 7) : Bool :=
  match u with
  | .zero => v == 0
  | .tile => true
  | .tileOrAcc => kind != 2 || v.toNat < 16
  | .e => v.toNat < 16
  | .obn => v.toNat < 8
  | .two => v.toNat < 4

/-- Source B by KIND for the operations that take a tile, a literal or an engine scalar (R88). -/
def srcbUse (kind : Nat) : FieldUse :=
  if kind == 1 then .zero else if kind == 3 then .e else .tile

/-- The checks R90 and R366 make on the fields of a slot, FILL aside. -/
def Slot.okBy (f : Slot) (r : SlotRule) : Bool :=
  r.kinds.contains f.kind.toNat
  && r.dst.ok 0 f.dst && r.srca.ok f.kind.toNat f.srca && r.srcb.ok f.kind.toNat f.srcb
  && r.srcc.ok 0 f.srcc
  && r.md f.md.toNat
  && r.fmt f.fmt.toNat
  && (r.shape || f.sh == 0)
  && (f.rm == 0 || r.rm f.fmt.toNat)
  && (f.sat == 0 || r.sat f.fmt.toNat)
  && f.lit.toNat ≤ 4
  && (match r.lit with
      | .never => f.lit == 0
      | .withKind1 => (f.lit == 0) == (f.kind != 1)
      | .optional => true
      | .withFill3 => (f.lit == 0) == (f.fill != 3))

/-- FILL of an exchange (R177): 0 to 6, and 6 for float formats only. -/
def Slot.fillOk (f : Slot) : Bool :=
  f.fill.toNat ≤ 6 && (f.fill != 6 || f.fmt.toNat < 6)

/-- Binary VA and VB operations (R158). -/
def ruleBin (kind : Nat) (fmt rm sat : Nat → Bool) : SlotRule :=
  { dst := .tile, srca := .tileOrAcc, srcb := srcbUse kind, srcc := .zero, kinds := [0, 1, 2, 3],
    md := (· == 0), lit := .withKind1, fmt := fmt, rm := rm, sat := sat }

/-- Three-source VA and VB operations. -/
def ruleTri (kind : Nat) (fmt rm sat : Nat → Bool) : SlotRule :=
  { ruleBin kind fmt rm sat with srcc := .tile }

/-- One-source VA and VB operations. -/
def ruleUn (fmt rm sat : Nat → Bool) : SlotRule :=
  { dst := .tile, srca := .tileOrAcc, srcb := .zero, srcc := .zero, kinds := [0, 2],
    md := (· == 0), lit := .never, fmt := fmt, rm := rm, sat := sat }

/-- VCVT: MOD[3:0] holds the source format (R93). -/
def ruleCvt : SlotRule := { ruleUn isFmt yes yes with md := (· ≤ 12) }

/-- VBCAST: a tile row or column with KIND 0, else a literal or an engine scalar (R164), where MOD[0] has no meaning and
holds 0. DESIGN CHOICE, log 120. -/
def ruleBcast (kind : Nat) : SlotRule :=
  { dst := .tile, srca := if kind == 0 then .tile else .zero,
    srcb := if kind == 3 then .e else .zero, srcc := .zero, kinds := [0, 1, 3],
    md := if kind == 0 then (· ≤ 1) else (· == 0), lit := .withKind1, fmt := isW, rm := no, sat := no }

/-- VIOTA (R164). -/
def ruleIota (kind : Nat) : SlotRule :=
  { ruleBcast kind with srca := .zero, md := (· == 0), fmt := isFI, rm := yes, sat := yes }

/-- Row accesses by base and stride (R167, R169). -/
def ruleRow (dst srcc : FieldUse) (md : Nat → Bool) : SlotRule :=
  { dst := dst, srca := .e, srcb := .e, srcc := srcc, kinds := [0], md := md, lit := .optional,
    fmt := isFmt, rm := no, sat := no }

/-- MOD of LDS and STS: the cluster and the window bit. -/
def mdWin (m : Nat) : Bool := m % 16 ≤ 1

/-- OSB accesses (R168). -/
def ruleOsb (dst srcc : FieldUse) : SlotRule :=
  { dst := dst, srca := .e, srcb := .obn, srcc := srcc, kinds := [0], md := (· % 16 == 0), lit := .optional,
    fmt := isW, rm := yes, sat := yes }

/-- Indexed accesses (R171). -/
def ruleIdx (dst srcc : FieldUse) (fmt : Nat → Bool) : SlotRule :=
  { dst := dst, srca := .e, srcb := .tile, srcc := srcc, kinds := [0], md := yes, lit := .never,
    fmt := fmt, rm := no, sat := no }

/-- Tile to tile XF operations with a second field. -/
def ruleXf (srcb : FieldUse) (kinds : List Nat) (md : Nat → Bool) (lit : LitUse) (fmt rm sat : Nat → Bool) : SlotRule :=
  { dst := .tile, srca := .tile, srcb := srcb, srcc := .zero, kinds := kinds, md := md, lit := lit,
    fmt := fmt, rm := rm, sat := sat }

/-- Special functions (R183). -/
def ruleSfu (fmt : Nat → Bool) : SlotRule :=
  { dst := .tile, srca := .tileOrAcc, srcb := .zero, srcc := .zero, kinds := [0, 2], md := (· % 16 == 0),
    lit := .never, fmt := fmt, rm := yes, sat := no }

/-- Engine-scalar operations with B an engine scalar or a literal (R184, R186): they use no shape. -/
def ruleE (kind : Nat) (dst srca : FieldUse) (md fmt : Nat → Bool) : SlotRule :=
  { dst := dst, srca := srca, srcb := if kind == 3 then .e else .zero, srcc := .zero, kinds := [1, 3],
    md := md, lit := .withKind1, fmt := fmt, rm := no, sat := no, shape := false }

/-- ANYK and ALLK (R185). -/
def ruleK : SlotRule :=
  { dst := .two, srca := .tile, srcb := .zero, srcc := .zero, kinds := [0], md := (· % 16 == 0), lit := .never,
    fmt := isWB, rm := no, sat := no }

/-- A slot whose opcode leaves FILL unused. -/
def Slot.plain (f : Slot) (r : SlotRule) : Bool := f.fill == 0 && f.okBy r

/-- VATOM (R158, R174): FILL[2:0] holds the operation, RM[1] asks for return values. -/
def Slot.vatomOk (f : Slot) : Bool :=
  f.okBy { ruleIdx (if f.rm == 2 then .tile else .zero) .tile (fun x => x == 6 || x == 1 || x == 0) with rm := yes }
  && f.rm.toNat % 2 == 0
  && f.fill.toNat ≤ 6
  && (f.fmt == 6 || f.fill.toNat ≤ 2 || f.fill == 6)

/-- Operand B of format R: select 0 names rb; 1 to 4 name a literal and rb is reserved (R111, R363). -/
def litOk (b : BitVec 5) (l : BitVec 3) : Bool := l == 0 || (l.toNat ≤ 4 && b == 0)

/-- A scope code (R96). -/
def scopeOk (s : BitVec 3) : Bool := s.toNat ≤ 4

/-- Order and scope of an atomic (R96, R121). -/
def amoOk (sc : BitVec 3) (o : BitVec 2) : Bool := scopeOk sc && (o != 0 || sc == 0)

/-- The source formats of LKPOOL (R210). -/
def poolFmtOk (s : BitVec 4) : Bool := [1, 2, 3, 6, 8].contains s.toNat


/-- Whether an instruction holds no reserved value: what decode accepts (R363) and LDCWT accepts (R366). The
machine's own events have no encoding and no reserved field. -/
def Instr.wf : Instr → Bool
  | .issueSelect _ _ => true
  | .bundleIssue _ => true
  | .bankSwitchQuantum _ _ _ => true
  | .contextWake _ => true
  | .startingComplete _ _ _ => true
  | .contextRetire _ _ _ => true
  | .add _ _ b l => litOk b l
  | .sub _ _ b l => litOk b l
  | .mul _ _ b l => litOk b l
  | .mulh _ _ b l => litOk b l
  | .mulhn _ _ b l => litOk b l
  | .div _ _ b l => litOk b l
  | .divn _ _ b l => litOk b l
  | .rem _ _ b l => litOk b l
  | .remn _ _ b l => litOk b l
  | .and _ _ b l => litOk b l
  | .or _ _ b l => litOk b l
  | .xor _ _ b l => litOk b l
  | .shl _ _ b l => litOk b l
  | .shr _ _ b l => litOk b l
  | .sha _ _ b l => litOk b l
  | .clz _ _ => true
  | .popc _ _ => true
  | .min _ _ b l => litOk b l
  | .max _ _ b l => litOk b l
  | .minn _ _ b l => litOk b l
  | .maxn _ _ b l => litOk b l
  | .sel _ _ b l => litOk b l
  | .cmpeq _ _ b l => litOk b l
  | .cmpne _ _ b l => litOk b l
  | .cmplt _ _ b l => litOk b l
  | .cmple _ _ b l => litOk b l
  | .cmpltn _ _ b l => litOk b l
  | .cmplen _ _ b l => litOk b l
  | .movl _ l => 1 ≤ l.toNat && l.toNat ≤ 4
  | .movlD _ l => 1 ≤ l.toNat && l.toNat ≤ 3
  | .lea _ _ b l _ => litOk b l
  | .addi _ _ _ => true
  | .andi _ _ _ => true
  | .ori _ _ _ => true
  | .xori _ _ _ => true
  | .shli _ _ _ => true
  | .shri _ _ _ => true
  | .shai _ _ _ => true
  | .cmplti _ _ _ => true
  | .ldb _ _ _ _ => true
  | .ldh _ _ _ _ => true
  | .ldw _ _ _ _ => true
  | .ldd _ _ _ _ => true
  | .ldbs _ _ _ _ => true
  | .ldhs _ _ _ _ => true
  | .ldws _ _ _ _ => true
  | .loadAcquire _ _ _ sc sz _ => scopeOk sc && sz.toNat ≤ 6
  | .stb _ _ _ _ => true
  | .sth _ _ _ _ => true
  | .stw _ _ _ _ => true
  | .std _ _ _ _ => true
  | .storeRelease _ _ _ sc sz _ => scopeOk sc && sz.toNat ≤ 3
  | .amoadd _ _ _ _ sc o _ => amoOk sc o
  | .amofadd _ _ _ _ sc o _ => amoOk sc o
  | .amoand _ _ _ _ sc o _ => amoOk sc o
  | .amoor _ _ _ _ sc o _ => amoOk sc o
  | .amoxor _ _ _ _ sc o _ => amoOk sc o
  | .amomin _ _ _ _ sc o _ => amoOk sc o
  | .amomax _ _ _ _ sc o _ => amoOk sc o
  | .amominn _ _ _ _ sc o _ => amoOk sc o
  | .amomaxn _ _ _ _ sc o _ => amoOk sc o
  | .amoswp _ _ _ _ sc o _ => amoOk sc o
  | .amocas _ _ _ _ sc o _ => amoOk sc o
  | .fence sc => scopeOk sc
  | .fencex y x sc => y.toNat ≤ 6 && x.toNat ≤ 6 && scopeOk sc
  | .br _ => true
  | .brl _ => true
  | .bz _ _ => true
  | .bnz _ _ => true
  | .buk _ _ => true
  | .bunk _ _ => true
  | .bdk _ _ _ => true
  | .bdkLong _ _ _ => true
  | .bdnk _ _ _ => true
  | .bdnkLong _ _ _ => true
  | .loop _ _ => true
  | .loops _ _ => true
  | .jr _ => true
  | .jrl _ _ => true
  | .rdfirst _ _ => true
  | .rdlane _ _ b l => litOk b l
  | .movam _ => true
  | .setam b l => litOk b l
  | .lstr _ b l => litOk b l
  | .lbrk b l => litOk b l
  | .bararv n => n.toNat ≤ 3
  | .barwt n => n.toNat ≤ 3
  | .waitc c b l => c.toNat ≤ 3 && litOk b l
  | .yield b l => litOk b l
  | .yieldTimeout _ _ _ => true
  | .continuationTake _ _ _ => true
  | .slotwait _ _ sc _ => scopeOk sc
  | .slotwaitRecheck _ _ _ => true
  | .slotsig _ sc _ => scopeOk sc
  | .nop => true
  | .trap _ => true
  | .rte => true
  | .csrr _ _ => true
  | .csrw _ _ => true
  | .csrs _ _ _ => true
  | .csrc _ _ _ => true
  | .ldcwt _ _ => true
  | .ldcwtLoadDone _ _ _ => true
  | .lkfetch _ _ _ => true
  | .lkdedup _ _ => true
  | .lkdedupClear _ _ => true
  | .lkpool _ _ _ o s => o.toNat ≤ 2 && poolFmtOk s
  | .lkhand _ _ _ => true
  | .mset _ _ _ => true
  | .mloop _ _ _ => true
  | .mtern _ _ _ => true
  | .qres _ _ _ _ => true
  | .qcvt _ _ s _ => s.toNat ≤ 2
  | .qprune _ _ _ => true
  | .qrel _ => true
  | .cpyset _ _ _ => true
  | .cpy _ _ _ _ => true
  | .cpyy _ _ _ _ _ => true
  | .ringset _ _ _ _ _ => true
  | .gthrSp _ _ => true
  | .gthrOb _ _ _ => true
  | .coll _ _ => true
  | .turn _ _ _ => true
  | .linkst _ _ => true
  | .nodeset _ _ _ => true
  | .nodeput _ _ _ _ => true
  | .launch _ _ _ => true
  | .vadd _ f => f.plain (ruleBin f.kind.toNat isFI isF isI)
  | .vsub _ f => f.plain (ruleBin f.kind.toNat isFI isF isI)
  | .vmul _ f => f.plain (ruleBin f.kind.toNat isFI isF isI)
  | .vfma _ f => f.plain (ruleTri f.kind.toNat isFI isF isI)
  | .vfms _ f => f.plain (ruleTri f.kind.toNat isFI isF isI)
  | .vfnma _ f => f.plain (ruleTri f.kind.toNat isFI isF isI)
  | .vmin _ f => f.plain (ruleBin f.kind.toNat isFI no no)
  | .vmax _ f => f.plain (ruleBin f.kind.toNat isFI no no)
  | .vabs _ f => f.plain (ruleUn (fun x => isF x || (6 ≤ x && x ≤ 8)) no isI)
  | .vneg _ f => f.plain (ruleUn (fun x => isF x || (6 ≤ x && x ≤ 8)) no isI)
  | .vmov _ f => f.plain (ruleUn isW no no)
  | .vsel _ f => f.plain (ruleTri f.kind.toNat isWB no no)
  | .vcmpeq _ f => f.plain (ruleBin f.kind.toNat isFI no no)
  | .vcmplt _ f => f.plain (ruleBin f.kind.toNat isFI no no)
  | .vcmple _ f => f.plain (ruleBin f.kind.toNat isFI no no)
  | .vand _ f => f.plain (ruleBin f.kind.toNat isWB no no)
  | .vor _ f => f.plain (ruleBin f.kind.toNat isWB no no)
  | .vxor _ f => f.plain (ruleBin f.kind.toNat isWB no no)
  | .vnot _ f => f.plain (ruleUn isWB no no)
  | .vshl _ f => f.plain (ruleBin f.kind.toNat isI no no)
  | .vshr _ f => f.plain (ruleBin f.kind.toNat isI no no)
  | .vsha _ f => f.plain (ruleBin f.kind.toNat isI no no)
  | .vcvt _ f => f.plain ruleCvt
  | .vclamp _ f => f.plain (ruleTri f.kind.toNat isFI no no)
  | .vbcast _ f => f.plain (ruleBcast f.kind.toNat)
  | .viota _ f => f.plain (ruleIota f.kind.toNat)
  | .vrsum _ f => f.plain (ruleUn isFI isF isI)
  | .vcsum _ f => f.plain (ruleUn isFI isF isI)
  | .vrmax _ f => f.plain (ruleUn isFI no no)
  | .vcmax _ f => f.plain (ruleUn isFI no no)
  | .vtrn _ f => f.plain (ruleUn isW no no)
  | .lds f => f.plain (ruleRow .tile .zero mdWin)
  | .sts f => f.plain (ruleRow .zero .tile mdWin)
  | .ldg f => f.plain (ruleRow .tile .zero yes)
  | .stg f => f.plain (ruleRow .zero .tile yes)
  | .ldo f => f.plain (ruleOsb .tile .zero)
  | .sto f => f.plain (ruleOsb .zero .tile)
  | .gath f => f.plain (ruleIdx .tile .zero isW)
  | .scat f => f.plain (ruleIdx .zero .tile isW)
  | .scadd f => f.plain (ruleIdx .zero .tile (fun x => x == 1 || x == 0 || x == 6))
  | .vatom f => f.vatomOk
  | .xcp f => f.plain (ruleXf .zero [0] (· % 16 == 0) .never isW no no)
  | .qxch f => f.fillOk && f.okBy (ruleXf .zero [0] (· % 16 ≤ 6) .withFill3 isW no no)
  | .gshf f => f.fillOk && f.okBy (ruleXf .e [3] (· % 16 ≤ 4) .withFill3 isW no no)
  | .gred f => f.plain (ruleXf .zero [0] (· % 16 ≤ 2) .never isFI isF isI)
  | .gscan f => f.plain (ruleXf .zero [0] (· % 16 ≤ 2) .never isFI isF isI)
  | .gseg f => f.plain (ruleXf .tile [0] (· % 16 ≤ 2) .never isFI isF isI)
  | .confd f => f.plain (ruleXf .zero [0] (· % 16 == 0) .never (· == 6) no no)
  | .vrcp f => f.plain (ruleSfu (· ≤ 2))
  | .vsqrt f => f.plain (ruleSfu (· ≤ 2))
  | .vrsq f => f.plain (ruleSfu (fun x => x == 1 || x == 2))
  | .vexp2 f => f.plain (ruleSfu (fun x => x == 1 || x == 2))
  | .vlog2 f => f.plain (ruleSfu (fun x => x == 1 || x == 2))
  | .eext f => f.plain (ruleE f.kind.toNat .e .tile (· % 16 == 0) isW)
  | .eins f => f.plain (ruleE f.kind.toNat .tile .e (· % 16 == 0) isW)
  | .eadd f => f.plain (ruleE f.kind.toNat .e .e (· == 0) (· == 0))
  | .esub f => f.plain (ruleE f.kind.toNat .e .e (· == 0) (· == 0))
  | .emul f => f.plain (ruleE f.kind.toNat .e .e (· == 0) (· == 0))
  | .emov f => f.plain (ruleE f.kind.toNat .e .zero (· == 0) (· == 0))
  | .ecmp f => f.plain (ruleE f.kind.toNat .two .e (· ≤ 5) (· == 0))
  | .anyk f => f.plain ruleK
  | .allk f => f.plain ruleK
  | .setsh f => f.plain (ruleE f.kind.toNat .two .zero (· == 0) (· == 0))
  | .globalLoadSectorLand _ _ _ => true
  | .storePerformAtHome _ _ => true
  | .storeAck _ => true
  | .atomicReturn _ => true
  | .walkComplete _ _ => true
  | .mergeEntryRetry _ => true
  | .faultAnswerRetry _ _ => true
  | .faultAnswerFail _ _ => true
  | .tlbInvalidate _ _ => true
  | .tlbInvalidateDone _ => true
  | .matrixCommandStart _ _ => true
  | .matrixKstepDone _ _ => true
  | .predictionWake _ => true
  | .mordantCommandRun _ _ => true
  | .copyStart _ _ => true
  | .copyComplete _ _ r => r.part.all (fun p => p.eng < 16)
  | .ringSlotServe _ _ _ => true
  | .gatherRequestStart _ => true
  | .lkfetchLand _ => true
  | .ochreThreadEnd _ _ => true
  | .collInstanceForm _ => true
  | .collComplete _ _ => true
  | .turnService _ => true
  | .groupDrainEnd _ _ => true
  | .deadTimeEnd _ _ => true
  | .dwellEnd _ _ => true
  | .turnBudgetWindow => true
  | .autoWindowEnd _ _ _ => true
  | .autoEntry _ => true
  | .binAccept _ _ => true
  | .binTimerExpire _ _ => true
  | .launchQueueTake _ _ => true
  | .placeGroup _ => true
  | .frontEndStarvation _ => true
  | .preemptCandidate _ => true
  | .preempt _ _ => true
  | .hardPreemptBound _ _ _ => true
  | .saveRecordWrite _ _ _ => true
  | .resume _ _ _ => true
  | .causeArrive _ _ _ _ => true
  | .faultRecordDrain _ => true
  | .faultMsix _ => true
  | .hostPostedWrite _ _ => true
  | .hostNonpostedRequest _ _ => true
  | .bar2Access _ _ => true
  | .sysReleaseFlushRead _ => true
  | .indigoSlot _ _ => true
  | .indigoDelivery _ _ => true
  | .escapeTimeout _ _ => true
  | .routerPowerDown _ _ => true
  | .routerWake _ _ => true
  | .linkReplay _ _ _ _ _ => true
  | .airufoldPortRetire _ => true
  | .dieContain _ _ => true
  | .dieWatchdog _ => true
  | .dieReadmit _ _ => true
  | .pcieLinkDown _ => true
  | .hostCompletionTimeout _ => true
  | .memoryScrub _ _ => true
  | .correctedErrorRecord _ _ _ => true
  | .evictionError _ => true
  | .bringupStage _ => true
  | .gateUpdate _ => true
  | .dieThermalHold _ => true
  | .partitionForm _ => true
  | .lqcfgWrite _ _ _ => true
  | .lqbaseWrite _ _ _ => true
  | .lqwpWrite _ _ _ => true
  | .fqcfgWrite _ _ => true
  | .fqrpWrite _ _ => true
  | .imginv _ _ => true
  | .imginvDone _ => true
  | .featackWrite _ _ _ => true
  | .pwrcapWrite _ _ => true
  | .diectlWrite _ _ => true
  | .attctlGo _ _ => true
  | .attestDone _ => true
  | .mgmtRegisterWrite _ _ _ => true
  | .powerGood => true
  | .pcieLinkTrained _ => true
  | .airufoldRouteGiveUp _ _ => true
  | .fansIgnoredWrite _ _ => true
  | .airufoldInboundRequest _ => true

/-- The well-formed instructions. -/
def WellFormed (i : Instr) : Prop := i.wf = true

end Sys2Proof
end

