-- ==== Sys2Proof/Decode.lean ====
section
/-!
DEFINITION. Decoding, total on any words: scalar and command words (R96 to R100, R188, R363), bundle headers (R79),
tile references (R85), slots of a control word (R86, R87, R93), then the encoder, and decodeTableWord.
-/
namespace Sys2Proof

/-- Why a word is no instruction (R106 step 4). -/
inductive DecodeError where
  /-- an undefined major opcode, function, sysop or cmd6: cause 0x03 -/
  | undefined
  /-- a non-zero reserved field: cause 0x04 -/
  | reservedField
  deriving DecidableEq, Repr

/-- What the selecting fields of a word say: no row, a row whose selector holds a reserved value, or a row with its
fields and the bits that must be zero. -/
inductive Candidate where
  | undefined
  | reserved
  | cand (i : Instr) (zero : BitVec 32)

/-- Field of n bits from bit lo (R2). -/
abbrev fld {m : Nat} (w : BitVec m) (lo n : Nat) : BitVec n := w.extractLsb' lo n


/-- The integer group, selected by bits [7:0] (R98). -/
def integerGroup (w : BitVec 32) : Candidate :=
  match (fld w 0 8).toNat with
  | 0x00 => .cand (.add (fld w 21 5) (fld w 16 5) (fld w 11 5) (fld w 8 3)) 0x00000000
  | 0x01 => .cand (.sub (fld w 21 5) (fld w 16 5) (fld w 11 5) (fld w 8 3)) 0x00000000
  | 0x02 => .cand (.mul (fld w 21 5) (fld w 16 5) (fld w 11 5) (fld w 8 3)) 0x00000000
  | 0x03 => .cand (.mulh (fld w 21 5) (fld w 16 5) (fld w 11 5) (fld w 8 3)) 0x00000000
  | 0x04 => .cand (.mulhn (fld w 21 5) (fld w 16 5) (fld w 11 5) (fld w 8 3)) 0x00000000
  | 0x05 => .cand (.div (fld w 21 5) (fld w 16 5) (fld w 11 5) (fld w 8 3)) 0x00000000
  | 0x06 => .cand (.divn (fld w 21 5) (fld w 16 5) (fld w 11 5) (fld w 8 3)) 0x00000000
  | 0x07 => .cand (.rem (fld w 21 5) (fld w 16 5) (fld w 11 5) (fld w 8 3)) 0x00000000
  | 0x08 => .cand (.remn (fld w 21 5) (fld w 16 5) (fld w 11 5) (fld w 8 3)) 0x00000000
  | 0x10 => .cand (.and (fld w 21 5) (fld w 16 5) (fld w 11 5) (fld w 8 3)) 0x00000000
  | 0x11 => .cand (.or (fld w 21 5) (fld w 16 5) (fld w 11 5) (fld w 8 3)) 0x00000000
  | 0x12 => .cand (.xor (fld w 21 5) (fld w 16 5) (fld w 11 5) (fld w 8 3)) 0x00000000
  | 0x13 => .cand (.shl (fld w 21 5) (fld w 16 5) (fld w 11 5) (fld w 8 3)) 0x00000000
  | 0x14 => .cand (.shr (fld w 21 5) (fld w 16 5) (fld w 11 5) (fld w 8 3)) 0x00000000
  | 0x15 => .cand (.sha (fld w 21 5) (fld w 16 5) (fld w 11 5) (fld w 8 3)) 0x00000000
  | 0x16 => .cand (.clz (fld w 21 5) (fld w 16 5)) 0x0000FF00
  | 0x17 => .cand (.popc (fld w 21 5) (fld w 16 5)) 0x0000FF00
  | 0x20 => .cand (.min (fld w 21 5) (fld w 16 5) (fld w 11 5) (fld w 8 3)) 0x00000000
  | 0x21 => .cand (.max (fld w 21 5) (fld w 16 5) (fld w 11 5) (fld w 8 3)) 0x00000000
  | 0x22 => .cand (.minn (fld w 21 5) (fld w 16 5) (fld w 11 5) (fld w 8 3)) 0x00000000
  | 0x23 => .cand (.maxn (fld w 21 5) (fld w 16 5) (fld w 11 5) (fld w 8 3)) 0x00000000
  | 0x24 => .cand (.sel (fld w 21 5) (fld w 16 5) (fld w 11 5) (fld w 8 3)) 0x00000000
  | 0x30 => .cand (.cmpeq (fld w 21 5) (fld w 16 5) (fld w 11 5) (fld w 8 3)) 0x00000000
  | 0x31 => .cand (.cmpne (fld w 21 5) (fld w 16 5) (fld w 11 5) (fld w 8 3)) 0x00000000
  | 0x32 => .cand (.cmplt (fld w 21 5) (fld w 16 5) (fld w 11 5) (fld w 8 3)) 0x00000000
  | 0x33 => .cand (.cmple (fld w 21 5) (fld w 16 5) (fld w 11 5) (fld w 8 3)) 0x00000000
  | 0x34 => .cand (.cmpltn (fld w 21 5) (fld w 16 5) (fld w 11 5) (fld w 8 3)) 0x00000000
  | 0x35 => .cand (.cmplen (fld w 21 5) (fld w 16 5) (fld w 11 5) (fld w 8 3)) 0x00000000
  | 0x40 =>
    match (fld w 16 5).toNat with
    | 0 => .cand (.movl (fld w 21 5) (fld w 8 3)) 0x0000F800
    | 1 => .cand (.movlD (fld w 21 5) (fld w 8 3)) 0x0000F800
    | _ => .reserved
  | 0x44 => .cand (.lea (fld w 21 5) (fld w 16 5) (fld w 11 5) (fld w 8 3) (fld w 0 2)) 0x00000000
  | 0x45 => .cand (.lea (fld w 21 5) (fld w 16 5) (fld w 11 5) (fld w 8 3) (fld w 0 2)) 0x00000000
  | 0x46 => .cand (.lea (fld w 21 5) (fld w 16 5) (fld w 11 5) (fld w 8 3) (fld w 0 2)) 0x00000000
  | 0x47 => .cand (.lea (fld w 21 5) (fld w 16 5) (fld w 11 5) (fld w 8 3) (fld w 0 2)) 0x00000000
  | _ => .undefined

/-- The control group, selected by bits [7:0] (R98). -/
def controlGroup (w : BitVec 32) : Candidate :=
  match (fld w 0 8).toNat with
  | 0x00 => .cand (.jr (fld w 16 5)) 0x03E0FF00
  | 0x01 => .cand (.jrl (fld w 21 5) (fld w 16 5)) 0x0000FF00
  | 0x10 => .cand (.rdfirst (fld w 21 5) (fld w 16 4)) 0x0010FF00
  | 0x11 => .cand (.rdlane (fld w 21 5) (fld w 16 4) (fld w 11 5) (fld w 8 3)) 0x00100000
  | 0x12 => .cand (.movam (fld w 21 5)) 0x001FFF00
  | 0x13 => .cand (.setam (fld w 11 5) (fld w 8 3)) 0x03FF0000
  | 0x20 => .cand (.lstr (fld w 21 5) (fld w 11 5) (fld w 8 3)) 0x001F0000
  | 0x21 => .cand (.lbrk (fld w 11 5) (fld w 8 3)) 0x03FF0000
  | _ => .undefined

/-- The sync group, selected by bits [7:0] (R98). -/
def syncGroup (w : BitVec 32) : Candidate :=
  match (fld w 0 8).toNat with
  | 0x00 => .cand (.bararv (fld w 16 5)) 0x03E0FF00
  | 0x01 => .cand (.barwt (fld w 16 5)) 0x03E0FF00
  | 0x02 => .cand (.waitc (fld w 21 5) (fld w 11 5) (fld w 8 3)) 0x001F0000
  | 0x03 => .cand (.yield (fld w 11 5) (fld w 8 3)) 0x03FF0000
  | 0x04 => .cand (.slotwait (fld w 21 5) (fld w 16 5) (fld w 12 3) (fld w 11 1)) 0x00008700
  | 0x05 => .cand (.slotsig (fld w 16 5) (fld w 12 3) (fld w 11 1)) 0x03E08700
  | _ => .undefined

/-- The engine commands, selected by cmd6 (R100); GTHR has two rows by mod6[1:0] (R188). -/
def commandGroup (w : BitVec 32) : Candidate :=
  match (fld w 6 6).toNat with
  | 0x00 => .cand (.mset (fld w 21 5) (fld w 16 5) (fld w 0 4)) 0x0000F030
  | 0x01 => .cand (.mloop (fld w 21 5) (fld w 16 5) (fld w 0 4)) 0x0000F030
  | 0x02 => .cand (.mtern (fld w 21 5) (fld w 16 5) (fld w 0 4)) 0x0000F030
  | 0x08 => .cand (.qres (fld w 21 5) (fld w 16 5) (fld w 3 1) (fld w 0 3)) 0x0000F030
  | 0x09 => .cand (.qcvt (fld w 21 5) (fld w 16 5) (fld w 3 2) (fld w 0 3)) 0x0000F020
  | 0x0A => .cand (.qprune (fld w 21 5) (fld w 16 5) (fld w 0 3)) 0x0000F038
  | 0x0B => .cand (.qrel (fld w 0 3)) 0x03FFF038
  | 0x10 => .cand (.cpyset (fld w 21 5) (fld w 16 5) (fld w 0 4)) 0x0000F030
  | 0x11 => .cand (.cpy (fld w 21 5) (fld w 16 5) (fld w 3 1) (fld w 0 3)) 0x0000F030
  | 0x12 => .cand (.cpyy (fld w 21 5) (fld w 16 5) (fld w 4 2) (fld w 3 1) (fld w 0 3)) 0x0000F000
  | 0x13 => .cand (.ringset (fld w 21 5) (fld w 16 5) (fld w 5 1) (fld w 4 1) (fld w 0 4)) 0x0000F000
  | 0x18 =>
    match (fld w 0 2).toNat with
    | 0 => .cand (.gthrSp (fld w 21 5) (fld w 16 5)) 0x0000F03C
    | 1 => .cand (.gthrOb (fld w 21 5) (fld w 16 5) (fld w 2 3)) 0x0000F020
    | _ => .reserved
  | 0x1C => .cand (.coll (fld w 21 5) (fld w 16 5)) 0x0000F03F
  | 0x20 => .cand (.turn (fld w 21 5) (fld w 16 5) (fld w 12 4)) 0x0000003F
  | 0x21 => .cand (.linkst (fld w 21 5) (fld w 12 4)) 0x001F003F
  | 0x28 => .cand (.nodeset (fld w 21 5) (fld w 16 5) (fld w 0 6)) 0x0000F000
  | 0x29 => .cand (.nodeput (fld w 21 5) (fld w 16 5) (fld w 12 4) (fld w 0 6)) 0x00000000
  | 0x2C => .cand (.launch (fld w 21 5) (fld w 16 5) (fld w 12 4)) 0x0000003F
  | _ => .undefined

/-- The system group, selected by sysop (R99). -/
def systemGroup (w : BitVec 32) : Candidate :=
  match (fld w 12 4).toNat with
  | 0 => .cand (.nop) 0x03FF0FFF
  | 1 => .cand (.trap (fld w 0 3)) 0x03FF0FF8
  | 2 => .cand (.rte) 0x03FF0FFF
  | 3 => .cand (.csrr (fld w 21 5) (fld w 0 12)) 0x001F0000
  | 4 => .cand (.csrw (fld w 16 5) (fld w 0 12)) 0x03E00000
  | 5 => .cand (.csrs (fld w 21 5) (fld w 16 5) (fld w 0 12)) 0x00000000
  | 6 => .cand (.csrc (fld w 21 5) (fld w 16 5) (fld w 0 12)) 0x00000000
  | 7 => .cand (.ldcwt (fld w 21 5) (fld w 16 5)) 0x00000FFF
  | _ => .undefined

/-- The row a word's major opcode and function select, with its fields, and the bits R96 to R100, R188 and R363
make zero for that row. -/
def candidate (w : BitVec 32) : Candidate :=
  match (fld w 26 6).toNat with
  | 0x01 => integerGroup w
  | 0x02 => .cand (.addi (fld w 21 5) (fld w 16 5) (fld w 0 16)) 0x00000000
  | 0x03 => .cand (.andi (fld w 21 5) (fld w 16 5) (fld w 0 16)) 0x00000000
  | 0x04 => .cand (.ori (fld w 21 5) (fld w 16 5) (fld w 0 16)) 0x00000000
  | 0x05 => .cand (.xori (fld w 21 5) (fld w 16 5) (fld w 0 16)) 0x00000000
  | 0x06 => .cand (.shli (fld w 21 5) (fld w 16 5) (fld w 0 6)) 0x0000FFC0
  | 0x07 => .cand (.shri (fld w 21 5) (fld w 16 5) (fld w 0 6)) 0x0000FFC0
  | 0x08 => .cand (.shai (fld w 21 5) (fld w 16 5) (fld w 0 6)) 0x0000FFC0
  | 0x09 => .cand (.cmplti (fld w 21 5) (fld w 16 5) (fld w 0 16)) 0x00000000
  | 0x0A => .cand (.lkfetch (fld w 21 5) (fld w 16 5) (fld w 0 8)) 0x0000FF00
  | 0x0B =>
    match (fld w 0 8).toNat with
    | 0 => .cand (.lkdedup (fld w 21 5) (fld w 16 5)) 0x0000FF00
    | 1 => .cand (.lkdedupClear (fld w 21 5) (fld w 16 5)) 0x0000FF00
    | _ => .reserved
  | 0x0C => .cand (.lkpool (fld w 21 5) (fld w 16 5) (fld w 11 5) (fld w 4 2) (fld w 0 4)) 0x000007C0
  | 0x0D => .cand (.lkhand (fld w 16 5) (fld w 11 5) (fld w 0 1)) 0x03E007FE
  | 0x10 => .cand (.ldb (fld w 21 5) (fld w 16 5) (fld w 12 4) (fld w 0 12)) 0x00000000
  | 0x11 => .cand (.ldh (fld w 21 5) (fld w 16 5) (fld w 12 4) (fld w 0 12)) 0x00000000
  | 0x12 => .cand (.ldw (fld w 21 5) (fld w 16 5) (fld w 12 4) (fld w 0 12)) 0x00000000
  | 0x13 => .cand (.ldd (fld w 21 5) (fld w 16 5) (fld w 12 4) (fld w 0 12)) 0x00000000
  | 0x14 => .cand (.ldbs (fld w 21 5) (fld w 16 5) (fld w 12 4) (fld w 0 12)) 0x00000000
  | 0x15 => .cand (.ldhs (fld w 21 5) (fld w 16 5) (fld w 12 4) (fld w 0 12)) 0x00000000
  | 0x16 => .cand (.ldws (fld w 21 5) (fld w 16 5) (fld w 12 4) (fld w 0 12)) 0x00000000
  | 0x17 => .cand (.loadAcquire (fld w 21 5) (fld w 16 5) (fld w 12 4) (fld w 9 3) (fld w 6 3) (fld w 0 6)) 0x00000000
  | 0x18 => .cand (.stb (fld w 21 5) (fld w 16 5) (fld w 12 4) (fld w 0 12)) 0x00000000
  | 0x19 => .cand (.sth (fld w 21 5) (fld w 16 5) (fld w 12 4) (fld w 0 12)) 0x00000000
  | 0x1A => .cand (.stw (fld w 21 5) (fld w 16 5) (fld w 12 4) (fld w 0 12)) 0x00000000
  | 0x1B => .cand (.std (fld w 21 5) (fld w 16 5) (fld w 12 4) (fld w 0 12)) 0x00000000
  | 0x1C => .cand (.storeRelease (fld w 21 5) (fld w 16 5) (fld w 12 4) (fld w 9 3) (fld w 6 3) (fld w 0 6)) 0x00000000
  | 0x20 => .cand (.amoadd (fld w 21 5) (fld w 16 5) (fld w 11 5) (fld w 7 4) (fld w 4 3) (fld w 2 2) (fld w 1 1)) 0x00000001
  | 0x21 => .cand (.amofadd (fld w 21 5) (fld w 16 5) (fld w 11 5) (fld w 7 4) (fld w 4 3) (fld w 2 2) (fld w 1 1)) 0x00000001
  | 0x22 => .cand (.amoand (fld w 21 5) (fld w 16 5) (fld w 11 5) (fld w 7 4) (fld w 4 3) (fld w 2 2) (fld w 1 1)) 0x00000001
  | 0x23 => .cand (.amoor (fld w 21 5) (fld w 16 5) (fld w 11 5) (fld w 7 4) (fld w 4 3) (fld w 2 2) (fld w 1 1)) 0x00000001
  | 0x24 => .cand (.amoxor (fld w 21 5) (fld w 16 5) (fld w 11 5) (fld w 7 4) (fld w 4 3) (fld w 2 2) (fld w 1 1)) 0x00000001
  | 0x25 => .cand (.amomin (fld w 21 5) (fld w 16 5) (fld w 11 5) (fld w 7 4) (fld w 4 3) (fld w 2 2) (fld w 1 1)) 0x00000001
  | 0x26 => .cand (.amomax (fld w 21 5) (fld w 16 5) (fld w 11 5) (fld w 7 4) (fld w 4 3) (fld w 2 2) (fld w 1 1)) 0x00000001
  | 0x27 => .cand (.amominn (fld w 21 5) (fld w 16 5) (fld w 11 5) (fld w 7 4) (fld w 4 3) (fld w 2 2) (fld w 1 1)) 0x00000001
  | 0x28 => .cand (.amomaxn (fld w 21 5) (fld w 16 5) (fld w 11 5) (fld w 7 4) (fld w 4 3) (fld w 2 2) (fld w 1 1)) 0x00000001
  | 0x29 => .cand (.amoswp (fld w 21 5) (fld w 16 5) (fld w 11 5) (fld w 7 4) (fld w 4 3) (fld w 2 2) (fld w 1 1)) 0x00000001
  | 0x2A => .cand (.amocas (fld w 21 5) (fld w 16 5) (fld w 11 5) (fld w 7 4) (fld w 4 3) (fld w 2 2) (fld w 1 1)) 0x00000001
  | 0x30 => .cand (.fence (fld w 0 3)) 0x03FFFFF8
  | 0x31 => .cand (.fencex (fld w 7 4) (fld w 3 4) (fld w 0 3)) 0x03FFF800
  | 0x32 => .cand (.br (fld w 0 21)) 0x03E00000
  | 0x33 => .cand (.brl (fld w 0 21)) 0x03E00000
  | 0x34 => .cand (.bz (fld w 21 5) (fld w 0 21)) 0x00000000
  | 0x35 => .cand (.bnz (fld w 21 5) (fld w 0 21)) 0x00000000
  | 0x36 => .cand (.buk (fld w 23 2) (fld w 0 21)) 0x02600000
  | 0x37 => .cand (.bunk (fld w 23 2) (fld w 0 21)) 0x02600000
  | 0x38 => if fld w 25 1 = 0 then .cand (.bdk (fld w 23 2) (fld w 21 2) (fld w 0 21)) 0x00000000
    else .cand (.bdkLong (fld w 23 2) (fld w 21 2) (fld w 0 21)) 0x00000000
  | 0x39 => if fld w 25 1 = 0 then .cand (.bdnk (fld w 23 2) (fld w 21 2) (fld w 0 21)) 0x00000000
    else .cand (.bdnkLong (fld w 23 2) (fld w 21 2) (fld w 0 21)) 0x00000000
  | 0x3A => controlGroup w
  | 0x3B => .cand (.loop (fld w 21 5) (fld w 0 21)) 0x00000000
  | 0x3C => .cand (.loops (fld w 21 5) (fld w 0 21)) 0x00000000
  | 0x3D => syncGroup w
  | 0x3E => commandGroup w
  | 0x3F => systemGroup w
  | _ => .undefined

/-- The instruction a scalar or command word is, or the check of R106 step 4 that it fails: the selecting fields
first, then the reserved fields. -/
def decodeWord (w : BitVec 32) : Except DecodeError Instr :=
  match candidate w with
  | .undefined => .error .undefined
  | .reserved => .error .reservedField
  | .cand i zero => if w &&& zero = 0 && i.wf then .ok i else .error .reservedField

/-- The fields of a bundle header (R79). -/
structure Header where
  res : BitVec 5
  lo : Bool
  fo : Bool
  ends : Bool
  safe : Bool
  nl : Nat
  ns : Nat
  t : Bool
  tile : BitVec 16
  deriving DecidableEq, Repr

/-- A header word's fields (R79). -/
def decodeHeader (w : BitVec 32) : Header :=
  { res := fld w 27 5, lo := w.getLsbD 26, fo := w.getLsbD 25, ends := w.getLsbD 24, safe := w.getLsbD 23,
    nl := (fld w 20 3).toNat, ns := (fld w 17 3).toNat, t := w.getLsbD 16, tile := fld w 0 16 }

/-- R106 step 1: reserved bits zero, NS and NL at most 4, no tile reference without T. -/
def Header.ok (h : Header) : Bool := h.res == 0 && h.nl ≤ 4 && h.ns ≤ 4 && (h.t || h.tile == 0)

/-- Words in the bundle (R79). -/
def Header.len (h : Header) : Nat := 1 + h.ns + h.nl

/-- Whether a function of the integer group takes an operand B, register or literal (R98, R111). -/
def integerOperandB (fn : Nat) : Bool :=
  fn ≤ 0x08 || (0x10 ≤ fn && fn ≤ 0x15) || (0x20 ≤ fn && fn ≤ 0x24) || (0x30 ≤ fn && fn ≤ 0x35)
    || (0x44 ≤ fn && fn ≤ 0x47)

/-- Whether a function of the control group does: RDLANE, SETAM, LSTR and LBRK (R98). -/
def controlOperandB (fn : Nat) : Bool := fn = 0x11 || fn = 0x13 || fn = 0x20 || fn = 0x21

/-- The numbers of the literals a scalar or command word names, read off the word alone (R83, R106 step 2). A word
whose function takes no operand B names none, whatever its bits [10:8] hold; a literal select of 5 to 7 names none: it
is reserved; MOVL.d with select 4 names the missing fifth (R363). -/
def literalRefs (w : BitVec 32) : List Nat :=
  let fn := (fld w 0 8).toNat
  let sel := (fld w 8 3).toNat
  let one := if 1 ≤ sel && sel ≤ 4 then [sel] else []
  match (fld w 26 6).toNat with
  | 0x01 =>
    if fn = 0x40 then
      (if fld w 16 5 = 1#5 && sel = 4 then [5] else if fld w 16 5 = 1#5 && sel ≠ 0 && sel ≤ 4 then [sel, sel + 1] else one)
    else if integerOperandB fn then one else []
  | 0x3A => if controlOperandB fn then one else []
  | 0x3D => if 2 ≤ fn && fn ≤ 3 then one else []
  | 0x38 => [(fld w 21 2).toNat + 1]
  | 0x39 => [(fld w 21 2).toNat + 1]
  | 0x3E => if fld w 6 6 = 0x12#6 then [(fld w 4 2).toNat + 1] else []
  | _ => []

/-- The opcode and the fields of a slot (R87). -/
def slotFields (b : BitVec 64) : Slot :=
  { fill := fld b 56 4, lit := fld b 53 3, md := fld b 48 5, sat := fld b 47 1, rm := fld b 45 2,
    kind := fld b 42 3, srcc := fld b 35 7, srcb := fld b 28 7, srca := fld b 21 7, dst := fld b 14 7,
    sh := fld b 12 2, fmt := fld b 8 4 }

/-- The four slots of a control word (R86). -/
inductive SlotPos where
  | va | vb | mem | xf
  deriving DecidableEq, Repr

/-- The opcode map VA and VB share (R93). -/
def vaOp (cl : Cluster) (op : Nat) (f : Slot) : Option Instr :=
  match op with
  | 0x01 => some (.vadd cl f)
  | 0x02 => some (.vsub cl f)
  | 0x03 => some (.vmul cl f)
  | 0x04 => some (.vfma cl f)
  | 0x05 => some (.vfms cl f)
  | 0x06 => some (.vfnma cl f)
  | 0x07 => some (.vmin cl f)
  | 0x08 => some (.vmax cl f)
  | 0x09 => some (.vabs cl f)
  | 0x0A => some (.vneg cl f)
  | 0x0B => some (.vmov cl f)
  | 0x0C => some (.vsel cl f)
  | 0x10 => some (.vcmpeq cl f)
  | 0x11 => some (.vcmplt cl f)
  | 0x12 => some (.vcmple cl f)
  | 0x18 => some (.vand cl f)
  | 0x19 => some (.vor cl f)
  | 0x1A => some (.vxor cl f)
  | 0x1B => some (.vnot cl f)
  | 0x1C => some (.vshl cl f)
  | 0x1D => some (.vshr cl f)
  | 0x1E => some (.vsha cl f)
  | 0x20 => some (.vcvt cl f)
  | 0x21 => some (.vclamp cl f)
  | 0x22 => some (.vbcast cl f)
  | 0x23 => some (.viota cl f)
  | 0x28 => some (.vrsum cl f)
  | 0x29 => some (.vcsum cl f)
  | 0x2A => some (.vrmax cl f)
  | 0x2B => some (.vcmax cl f)
  | 0x2C => some (.vtrn cl f)
  | _ => none

/-- The MEM opcode map (R93). -/
def memOp (op : Nat) (f : Slot) : Option Instr :=
  match op with
  | 0x01 => some (.lds f)
  | 0x02 => some (.sts f)
  | 0x03 => some (.ldg f)
  | 0x04 => some (.stg f)
  | 0x05 => some (.ldo f)
  | 0x06 => some (.sto f)
  | 0x08 => some (.gath f)
  | 0x09 => some (.scat f)
  | 0x0A => some (.scadd f)
  | 0x0B => some (.vatom f)
  | _ => none

/-- The XF opcode map (R93). -/
def xfOp (op : Nat) (f : Slot) : Option Instr :=
  match op with
  | 0x01 => some (.xcp f)
  | 0x02 => some (.qxch f)
  | 0x03 => some (.gshf f)
  | 0x04 => some (.gred f)
  | 0x05 => some (.gscan f)
  | 0x06 => some (.gseg f)
  | 0x07 => some (.confd f)
  | 0x10 => some (.vrcp f)
  | 0x11 => some (.vsqrt f)
  | 0x12 => some (.vrsq f)
  | 0x13 => some (.vexp2 f)
  | 0x14 => some (.vlog2 f)
  | 0x20 => some (.eext f)
  | 0x21 => some (.eins f)
  | 0x22 => some (.eadd f)
  | 0x23 => some (.esub f)
  | 0x24 => some (.emul f)
  | 0x25 => some (.emov f)
  | 0x26 => some (.ecmp f)
  | 0x28 => some (.anyk f)
  | 0x29 => some (.allk f)
  | 0x30 => some (.setsh f)
  | _ => none

/-- The instruction of an opcode in a slot (R89, R93). -/
def slotInstr (p : SlotPos) (op : Nat) (f : Slot) : Option Instr :=
  match p with
  | .va => vaOp .a op f
  | .vb => vaOp .b op f
  | .mem => memOp op f
  | .xf => xfOp op f

/-- A slot of a control word: idle, an instruction, or refused by R90 and R366. -/
def decodeSlot (p : SlotPos) (b : BitVec 64) : Except DecodeError (Option Instr) :=
  if b = 0 then .ok none
  else if fld b 60 4 ≠ 0#4 then .error .reservedField
  else match slotInstr p (fld b 0 8).toNat (slotFields b) with
    | none => .error .undefined
    | some i => if i.wf then .ok (some i) else .error .reservedField

/-- Slot p of a 256-bit CWT entry: VA lowest (R86). -/
def slotBits (e : BitVec 256) : SlotPos → BitVec 64
  | .va => fld e 0 64
  | .vb => fld e 64 64
  | .mem => fld e 128 64
  | .xf => fld e 192 64

/-- Whether LDCWT accepts an entry: every slot obeys R90 (R366). -/
def entryOk (e : BitVec 256) : Bool :=
  [SlotPos.va, .vb, .mem, .xf].all fun p => match decodeSlot p (slotBits e p) with
    | .ok _ => true
    | .error _ => false

/-- A register field after rotation: with the rotate flag set, (n + ROT) mod 64, and the flag spent (R85). -/
def rotField (rot : Nat) (v : BitVec 7) : BitVec 7 :=
  if v.getLsbD 6 then BitVec.ofNat 7 ((v.toNat % 64 + rot) % 64) else v

/-- A slot's fields after rotation. Only tile register fields carry the flag (R88). -/
def Slot.rotate (rot : Nat) (f : Slot) : Slot :=
  { f with dst := rotField rot f.dst, srca := rotField rot f.srca, srcb := rotField rot f.srcb,
           srcc := rotField rot f.srcc }

/-- The operation of slot p of a control word under a bundle's ROT, or none for an idle slot (R85). -/
def expandSlot (rot : Nat) (e : BitVec 256) (p : SlotPos) : Option Instr :=
  let b := slotBits e p
  if b = 0 then none else slotInstr p (fld b 0 8).toNat ((slotFields b).rotate rot)

/-- The operations of a control word, in the order VA, VB, MEM, XF. -/
def expandEntry (rot : Nat) (e : BitVec 256) : List Instr :=
  [SlotPos.va, .vb, .mem, .xf].filterMap (expandSlot rot e)

/-- The 32-bit word of an instruction that has one, from the fields' places in R96 to R100, R188 and R210. -/
def encodeWord : Instr → Option (BitVec 32)
  | .issueSelect _ _ => none
  | .bundleIssue _ => none
  | .bankSwitchQuantum _ _ _ => none
  | .contextWake _ => none
  | .startingComplete _ _ _ => none
  | .contextRetire _ _ _ => none
  | .add d a b l => some (0x1#6 ++ d ++ a ++ b ++ l ++ 0x0#8)
  | .sub d a b l => some (0x1#6 ++ d ++ a ++ b ++ l ++ 0x1#8)
  | .mul d a b l => some (0x1#6 ++ d ++ a ++ b ++ l ++ 0x2#8)
  | .mulh d a b l => some (0x1#6 ++ d ++ a ++ b ++ l ++ 0x3#8)
  | .mulhn d a b l => some (0x1#6 ++ d ++ a ++ b ++ l ++ 0x4#8)
  | .div d a b l => some (0x1#6 ++ d ++ a ++ b ++ l ++ 0x5#8)
  | .divn d a b l => some (0x1#6 ++ d ++ a ++ b ++ l ++ 0x6#8)
  | .rem d a b l => some (0x1#6 ++ d ++ a ++ b ++ l ++ 0x7#8)
  | .remn d a b l => some (0x1#6 ++ d ++ a ++ b ++ l ++ 0x8#8)
  | .and d a b l => some (0x1#6 ++ d ++ a ++ b ++ l ++ 0x10#8)
  | .or d a b l => some (0x1#6 ++ d ++ a ++ b ++ l ++ 0x11#8)
  | .xor d a b l => some (0x1#6 ++ d ++ a ++ b ++ l ++ 0x12#8)
  | .shl d a b l => some (0x1#6 ++ d ++ a ++ b ++ l ++ 0x13#8)
  | .shr d a b l => some (0x1#6 ++ d ++ a ++ b ++ l ++ 0x14#8)
  | .sha d a b l => some (0x1#6 ++ d ++ a ++ b ++ l ++ 0x15#8)
  | .clz d a => some (0x1#6 ++ d ++ a ++ 0x16#16)
  | .popc d a => some (0x1#6 ++ d ++ a ++ 0x17#16)
  | .min d a b l => some (0x1#6 ++ d ++ a ++ b ++ l ++ 0x20#8)
  | .max d a b l => some (0x1#6 ++ d ++ a ++ b ++ l ++ 0x21#8)
  | .minn d a b l => some (0x1#6 ++ d ++ a ++ b ++ l ++ 0x22#8)
  | .maxn d a b l => some (0x1#6 ++ d ++ a ++ b ++ l ++ 0x23#8)
  | .sel d a b l => some (0x1#6 ++ d ++ a ++ b ++ l ++ 0x24#8)
  | .cmpeq d a b l => some (0x1#6 ++ d ++ a ++ b ++ l ++ 0x30#8)
  | .cmpne d a b l => some (0x1#6 ++ d ++ a ++ b ++ l ++ 0x31#8)
  | .cmplt d a b l => some (0x1#6 ++ d ++ a ++ b ++ l ++ 0x32#8)
  | .cmple d a b l => some (0x1#6 ++ d ++ a ++ b ++ l ++ 0x33#8)
  | .cmpltn d a b l => some (0x1#6 ++ d ++ a ++ b ++ l ++ 0x34#8)
  | .cmplen d a b l => some (0x1#6 ++ d ++ a ++ b ++ l ++ 0x35#8)
  | .movl d l => some (0x1#6 ++ d ++ 0x0#10 ++ l ++ 0x40#8)
  | .movlD d l => some (0x1#6 ++ d ++ 0x20#10 ++ l ++ 0x40#8)
  | .lea d a b l n => some (0x1#6 ++ d ++ a ++ b ++ l ++ 0x11#6 ++ n)
  | .addi d a i => some (0x2#6 ++ d ++ a ++ i)
  | .andi d a i => some (0x3#6 ++ d ++ a ++ i)
  | .ori d a i => some (0x4#6 ++ d ++ a ++ i)
  | .xori d a i => some (0x5#6 ++ d ++ a ++ i)
  | .shli d a n => some (0x6#6 ++ d ++ a ++ 0x0#10 ++ n)
  | .shri d a n => some (0x7#6 ++ d ++ a ++ 0x0#10 ++ n)
  | .shai d a n => some (0x8#6 ++ d ++ a ++ 0x0#10 ++ n)
  | .cmplti d a i => some (0x9#6 ++ d ++ a ++ i)
  | .ldb d a la o => some (0x10#6 ++ d ++ a ++ la ++ o)
  | .ldh d a la o => some (0x11#6 ++ d ++ a ++ la ++ o)
  | .ldw d a la o => some (0x12#6 ++ d ++ a ++ la ++ o)
  | .ldd d a la o => some (0x13#6 ++ d ++ a ++ la ++ o)
  | .ldbs d a la o => some (0x14#6 ++ d ++ a ++ la ++ o)
  | .ldhs d a la o => some (0x15#6 ++ d ++ a ++ la ++ o)
  | .ldws d a la o => some (0x16#6 ++ d ++ a ++ la ++ o)
  | .loadAcquire d a la sc sz o => some (0x17#6 ++ d ++ a ++ la ++ sc ++ sz ++ o)
  | .stb d a la o => some (0x18#6 ++ d ++ a ++ la ++ o)
  | .sth d a la o => some (0x19#6 ++ d ++ a ++ la ++ o)
  | .stw d a la o => some (0x1A#6 ++ d ++ a ++ la ++ o)
  | .std d a la o => some (0x1B#6 ++ d ++ a ++ la ++ o)
  | .storeRelease d a la sc sz o => some (0x1C#6 ++ d ++ a ++ la ++ sc ++ sz ++ o)
  | .amoadd d a b la sc o z => some (0x20#6 ++ d ++ a ++ b ++ la ++ sc ++ o ++ z ++ 0x0#1)
  | .amofadd d a b la sc o z => some (0x21#6 ++ d ++ a ++ b ++ la ++ sc ++ o ++ z ++ 0x0#1)
  | .amoand d a b la sc o z => some (0x22#6 ++ d ++ a ++ b ++ la ++ sc ++ o ++ z ++ 0x0#1)
  | .amoor d a b la sc o z => some (0x23#6 ++ d ++ a ++ b ++ la ++ sc ++ o ++ z ++ 0x0#1)
  | .amoxor d a b la sc o z => some (0x24#6 ++ d ++ a ++ b ++ la ++ sc ++ o ++ z ++ 0x0#1)
  | .amomin d a b la sc o z => some (0x25#6 ++ d ++ a ++ b ++ la ++ sc ++ o ++ z ++ 0x0#1)
  | .amomax d a b la sc o z => some (0x26#6 ++ d ++ a ++ b ++ la ++ sc ++ o ++ z ++ 0x0#1)
  | .amominn d a b la sc o z => some (0x27#6 ++ d ++ a ++ b ++ la ++ sc ++ o ++ z ++ 0x0#1)
  | .amomaxn d a b la sc o z => some (0x28#6 ++ d ++ a ++ b ++ la ++ sc ++ o ++ z ++ 0x0#1)
  | .amoswp d a b la sc o z => some (0x29#6 ++ d ++ a ++ b ++ la ++ sc ++ o ++ z ++ 0x0#1)
  | .amocas d a b la sc o z => some (0x2A#6 ++ d ++ a ++ b ++ la ++ sc ++ o ++ z ++ 0x0#1)
  | .fence sc => some (0x18000000#29 ++ sc)
  | .fencex y x sc => some (0x188000#21 ++ y ++ x ++ sc)
  | .br t => some (0x640#11 ++ t)
  | .brl t => some (0x660#11 ++ t)
  | .bz a t => some (0x34#6 ++ a ++ t)
  | .bnz a t => some (0x35#6 ++ a ++ t)
  | .buk k t => some (0x6C#7 ++ k ++ 0x0#2 ++ t)
  | .bunk k t => some (0x6E#7 ++ k ++ 0x0#2 ++ t)
  | .bdk k j t => some (0x70#7 ++ k ++ j ++ t)
  | .bdkLong k j t => some (0x71#7 ++ k ++ j ++ t)
  | .bdnk k j t => some (0x72#7 ++ k ++ j ++ t)
  | .bdnkLong k j t => some (0x73#7 ++ k ++ j ++ t)
  | .loop a t => some (0x3B#6 ++ a ++ t)
  | .loops a t => some (0x3C#6 ++ a ++ t)
  | .jr a => some (0x740#11 ++ a ++ 0x0#16)
  | .jrl d a => some (0x3A#6 ++ d ++ a ++ 0x1#16)
  | .rdfirst d n => some (0x3A#6 ++ d ++ 0x0#1 ++ n ++ 0x10#16)
  | .rdlane d n b l => some (0x3A#6 ++ d ++ 0x0#1 ++ n ++ b ++ l ++ 0x11#8)
  | .movam d => some (0x3A#6 ++ d ++ 0x12#21)
  | .setam b l => some (0xE800#16 ++ b ++ l ++ 0x13#8)
  | .lstr d b l => some (0x3A#6 ++ d ++ 0x0#5 ++ b ++ l ++ 0x20#8)
  | .lbrk b l => some (0xE800#16 ++ b ++ l ++ 0x21#8)
  | .bararv n => some (0x7A0#11 ++ n ++ 0x0#16)
  | .barwt n => some (0x7A0#11 ++ n ++ 0x1#16)
  | .waitc c b l => some (0x3D#6 ++ c ++ 0x0#5 ++ b ++ l ++ 0x2#8)
  | .yield b l => some (0xF400#16 ++ b ++ l ++ 0x3#8)
  | .yieldTimeout _ _ _ => none
  | .continuationTake _ _ _ => none
  | .slotwait d a sc side => some (0x3D#6 ++ d ++ a ++ 0x0#1 ++ sc ++ side ++ 0x4#11)
  | .slotwaitRecheck _ _ _ => none
  | .slotsig a sc side => some (0x7A0#11 ++ a ++ 0x0#1 ++ sc ++ side ++ 0x5#11)
  | .nop => some (0xFC000000#32)
  | .trap n => some (0x1F800200#29 ++ n)
  | .rte => some (0xFC002000#32)
  | .csrr d c => some (0x3F#6 ++ d ++ 0x3#9 ++ c)
  | .csrw a c => some (0x7E0#11 ++ a ++ 0x4#4 ++ c)
  | .csrs d a c => some (0x3F#6 ++ d ++ a ++ 0x5#4 ++ c)
  | .csrc d a c => some (0x3F#6 ++ d ++ a ++ 0x6#4 ++ c)
  | .ldcwt d a => some (0x3F#6 ++ d ++ a ++ 0x7000#16)
  | .ldcwtLoadDone _ _ _ => none
  | .lkfetch d a n => some (0xA#6 ++ d ++ a ++ 0x0#8 ++ n)
  | .lkdedup d a => some (0xB#6 ++ d ++ a ++ 0x0#16)
  | .lkdedupClear d a => some (0xB#6 ++ d ++ a ++ 0x1#16)
  | .lkpool d a b o s => some (0xC#6 ++ d ++ a ++ b ++ 0x0#5 ++ o ++ s)
  | .lkhand a b t => some (0x1A0#11 ++ a ++ b ++ 0x0#10 ++ t)
  | .mset a b n => some (0x3E#6 ++ a ++ b ++ 0x0#12 ++ n)
  | .mloop a b n => some (0x3E#6 ++ a ++ b ++ 0x4#12 ++ n)
  | .mtern a b n => some (0x3E#6 ++ a ++ b ++ 0x8#12 ++ n)
  | .qres a b z n => some (0x3E#6 ++ a ++ b ++ 0x20#12 ++ z ++ n)
  | .qcvt a b s n => some (0x3E#6 ++ a ++ b ++ 0x12#11 ++ s ++ n)
  | .qprune a b n => some (0x3E#6 ++ a ++ b ++ 0x50#13 ++ n)
  | .qrel n => some (0x1F000058#29 ++ n)
  | .cpyset a b n => some (0x3E#6 ++ a ++ b ++ 0x40#12 ++ n)
  | .cpy a b g n => some (0x3E#6 ++ a ++ b ++ 0x44#12 ++ g ++ n)
  | .cpyy a b j g n => some (0x3E#6 ++ a ++ b ++ 0x12#10 ++ j ++ g ++ n)
  | .ringset a b sc side n => some (0x3E#6 ++ a ++ b ++ 0x13#10 ++ sc ++ side ++ n)
  | .gthrSp a b => some (0x3E#6 ++ a ++ b ++ 0x600#16)
  | .gthrOb a b n => some (0x3E#6 ++ a ++ b ++ 0x30#11 ++ n ++ 0x1#2)
  | .coll a b => some (0x3E#6 ++ a ++ b ++ 0x700#16)
  | .turn a b la => some (0x3E#6 ++ a ++ b ++ la ++ 0x800#12)
  | .linkst a la => some (0x3E#6 ++ a ++ 0x0#5 ++ la ++ 0x840#12)
  | .nodeset a b n => some (0x3E#6 ++ a ++ b ++ 0x28#10 ++ n)
  | .nodeput a b la n => some (0x3E#6 ++ a ++ b ++ la ++ 0x29#6 ++ n)
  | .launch a b la => some (0x3E#6 ++ a ++ b ++ la ++ 0xB00#12)
  | .vadd _ _ => none
  | .vsub _ _ => none
  | .vmul _ _ => none
  | .vfma _ _ => none
  | .vfms _ _ => none
  | .vfnma _ _ => none
  | .vmin _ _ => none
  | .vmax _ _ => none
  | .vabs _ _ => none
  | .vneg _ _ => none
  | .vmov _ _ => none
  | .vsel _ _ => none
  | .vcmpeq _ _ => none
  | .vcmplt _ _ => none
  | .vcmple _ _ => none
  | .vand _ _ => none
  | .vor _ _ => none
  | .vxor _ _ => none
  | .vnot _ _ => none
  | .vshl _ _ => none
  | .vshr _ _ => none
  | .vsha _ _ => none
  | .vcvt _ _ => none
  | .vclamp _ _ => none
  | .vbcast _ _ => none
  | .viota _ _ => none
  | .vrsum _ _ => none
  | .vcsum _ _ => none
  | .vrmax _ _ => none
  | .vcmax _ _ => none
  | .vtrn _ _ => none
  | .lds _ => none
  | .sts _ => none
  | .ldg _ => none
  | .stg _ => none
  | .ldo _ => none
  | .sto _ => none
  | .gath _ => none
  | .scat _ => none
  | .scadd _ => none
  | .vatom _ => none
  | .xcp _ => none
  | .qxch _ => none
  | .gshf _ => none
  | .gred _ => none
  | .gscan _ => none
  | .gseg _ => none
  | .confd _ => none
  | .vrcp _ => none
  | .vsqrt _ => none
  | .vrsq _ => none
  | .vexp2 _ => none
  | .vlog2 _ => none
  | .eext _ => none
  | .eins _ => none
  | .eadd _ => none
  | .esub _ => none
  | .emul _ => none
  | .emov _ => none
  | .ecmp _ => none
  | .anyk _ => none
  | .allk _ => none
  | .setsh _ => none
  | .globalLoadSectorLand _ _ _ => none
  | .storePerformAtHome _ _ => none
  | .storeAck _ => none
  | .atomicReturn _ => none
  | .walkComplete _ _ => none
  | .mergeEntryRetry _ => none
  | .faultAnswerRetry _ _ => none
  | .faultAnswerFail _ _ => none
  | .tlbInvalidate _ _ => none
  | .tlbInvalidateDone _ => none
  | .matrixCommandStart _ _ => none
  | .matrixKstepDone _ _ => none
  | .predictionWake _ => none
  | .mordantCommandRun _ _ => none
  | .copyStart _ _ => none
  | .copyComplete _ _ _ => none
  | .ringSlotServe _ _ _ => none
  | .gatherRequestStart _ => none
  | .lkfetchLand _ => none
  | .ochreThreadEnd _ _ => none
  | .collInstanceForm _ => none
  | .collComplete _ _ => none
  | .turnService _ => none
  | .groupDrainEnd _ _ => none
  | .deadTimeEnd _ _ => none
  | .dwellEnd _ _ => none
  | .turnBudgetWindow => none
  | .autoWindowEnd _ _ _ => none
  | .autoEntry _ => none
  | .binAccept _ _ => none
  | .binTimerExpire _ _ => none
  | .launchQueueTake _ _ => none
  | .placeGroup _ => none
  | .frontEndStarvation _ => none
  | .preemptCandidate _ => none
  | .preempt _ _ => none
  | .hardPreemptBound _ _ _ => none
  | .saveRecordWrite _ _ _ => none
  | .resume _ _ _ => none
  | .causeArrive _ _ _ _ => none
  | .faultRecordDrain _ => none
  | .faultMsix _ => none
  | .hostPostedWrite _ _ => none
  | .hostNonpostedRequest _ _ => none
  | .bar2Access _ _ => none
  | .sysReleaseFlushRead _ => none
  | .indigoSlot _ _ => none
  | .indigoDelivery _ _ => none
  | .escapeTimeout _ _ => none
  | .routerPowerDown _ _ => none
  | .routerWake _ _ => none
  | .linkReplay _ _ _ _ _ => none
  | .airufoldPortRetire _ => none
  | .dieContain _ _ => none
  | .dieWatchdog _ => none
  | .dieReadmit _ _ => none
  | .pcieLinkDown _ => none
  | .hostCompletionTimeout _ => none
  | .memoryScrub _ _ => none
  | .correctedErrorRecord _ _ _ => none
  | .evictionError _ => none
  | .bringupStage _ => none
  | .gateUpdate _ => none
  | .dieThermalHold _ => none
  | .partitionForm _ => none
  | .lqcfgWrite _ _ _ => none
  | .lqbaseWrite _ _ _ => none
  | .lqwpWrite _ _ _ => none
  | .fqcfgWrite _ _ => none
  | .fqrpWrite _ _ => none
  | .imginv _ _ => none
  | .imginvDone _ => none
  | .featackWrite _ _ _ => none
  | .pwrcapWrite _ _ => none
  | .diectlWrite _ _ => none
  | .attctlGo _ _ => none
  | .attestDone _ => none
  | .mgmtRegisterWrite _ _ _ => none
  | .powerGood => none
  | .pcieLinkTrained _ => none
  | .airufoldRouteGiveUp _ _ => none
  | .fansIgnoredWrite _ _ => none
  | .airufoldInboundRequest _ => none

/-- The opcode of a tile instruction in its slot (R93). -/
def slotOpcode : Instr → Option (BitVec 8 × Slot)
  | .issueSelect _ _ => none
  | .bundleIssue _ => none
  | .bankSwitchQuantum _ _ _ => none
  | .contextWake _ => none
  | .startingComplete _ _ _ => none
  | .contextRetire _ _ _ => none
  | .add _ _ _ _ => none
  | .sub _ _ _ _ => none
  | .mul _ _ _ _ => none
  | .mulh _ _ _ _ => none
  | .mulhn _ _ _ _ => none
  | .div _ _ _ _ => none
  | .divn _ _ _ _ => none
  | .rem _ _ _ _ => none
  | .remn _ _ _ _ => none
  | .and _ _ _ _ => none
  | .or _ _ _ _ => none
  | .xor _ _ _ _ => none
  | .shl _ _ _ _ => none
  | .shr _ _ _ _ => none
  | .sha _ _ _ _ => none
  | .clz _ _ => none
  | .popc _ _ => none
  | .min _ _ _ _ => none
  | .max _ _ _ _ => none
  | .minn _ _ _ _ => none
  | .maxn _ _ _ _ => none
  | .sel _ _ _ _ => none
  | .cmpeq _ _ _ _ => none
  | .cmpne _ _ _ _ => none
  | .cmplt _ _ _ _ => none
  | .cmple _ _ _ _ => none
  | .cmpltn _ _ _ _ => none
  | .cmplen _ _ _ _ => none
  | .movl _ _ => none
  | .movlD _ _ => none
  | .lea _ _ _ _ _ => none
  | .addi _ _ _ => none
  | .andi _ _ _ => none
  | .ori _ _ _ => none
  | .xori _ _ _ => none
  | .shli _ _ _ => none
  | .shri _ _ _ => none
  | .shai _ _ _ => none
  | .cmplti _ _ _ => none
  | .ldb _ _ _ _ => none
  | .ldh _ _ _ _ => none
  | .ldw _ _ _ _ => none
  | .ldd _ _ _ _ => none
  | .ldbs _ _ _ _ => none
  | .ldhs _ _ _ _ => none
  | .ldws _ _ _ _ => none
  | .loadAcquire _ _ _ _ _ _ => none
  | .stb _ _ _ _ => none
  | .sth _ _ _ _ => none
  | .stw _ _ _ _ => none
  | .std _ _ _ _ => none
  | .storeRelease _ _ _ _ _ _ => none
  | .amoadd _ _ _ _ _ _ _ => none
  | .amofadd _ _ _ _ _ _ _ => none
  | .amoand _ _ _ _ _ _ _ => none
  | .amoor _ _ _ _ _ _ _ => none
  | .amoxor _ _ _ _ _ _ _ => none
  | .amomin _ _ _ _ _ _ _ => none
  | .amomax _ _ _ _ _ _ _ => none
  | .amominn _ _ _ _ _ _ _ => none
  | .amomaxn _ _ _ _ _ _ _ => none
  | .amoswp _ _ _ _ _ _ _ => none
  | .amocas _ _ _ _ _ _ _ => none
  | .fence _ => none
  | .fencex _ _ _ => none
  | .br _ => none
  | .brl _ => none
  | .bz _ _ => none
  | .bnz _ _ => none
  | .buk _ _ => none
  | .bunk _ _ => none
  | .bdk _ _ _ => none
  | .bdkLong _ _ _ => none
  | .bdnk _ _ _ => none
  | .bdnkLong _ _ _ => none
  | .loop _ _ => none
  | .loops _ _ => none
  | .jr _ => none
  | .jrl _ _ => none
  | .rdfirst _ _ => none
  | .rdlane _ _ _ _ => none
  | .movam _ => none
  | .setam _ _ => none
  | .lstr _ _ _ => none
  | .lbrk _ _ => none
  | .bararv _ => none
  | .barwt _ => none
  | .waitc _ _ _ => none
  | .yield _ _ => none
  | .yieldTimeout _ _ _ => none
  | .continuationTake _ _ _ => none
  | .slotwait _ _ _ _ => none
  | .slotwaitRecheck _ _ _ => none
  | .slotsig _ _ _ => none
  | .nop => none
  | .trap _ => none
  | .rte => none
  | .csrr _ _ => none
  | .csrw _ _ => none
  | .csrs _ _ _ => none
  | .csrc _ _ _ => none
  | .ldcwt _ _ => none
  | .ldcwtLoadDone _ _ _ => none
  | .lkfetch _ _ _ => none
  | .lkdedup _ _ => none
  | .lkdedupClear _ _ => none
  | .lkpool _ _ _ _ _ => none
  | .lkhand _ _ _ => none
  | .mset _ _ _ => none
  | .mloop _ _ _ => none
  | .mtern _ _ _ => none
  | .qres _ _ _ _ => none
  | .qcvt _ _ _ _ => none
  | .qprune _ _ _ => none
  | .qrel _ => none
  | .cpyset _ _ _ => none
  | .cpy _ _ _ _ => none
  | .cpyy _ _ _ _ _ => none
  | .ringset _ _ _ _ _ => none
  | .gthrSp _ _ => none
  | .gthrOb _ _ _ => none
  | .coll _ _ => none
  | .turn _ _ _ => none
  | .linkst _ _ => none
  | .nodeset _ _ _ => none
  | .nodeput _ _ _ _ => none
  | .launch _ _ _ => none
  | .vadd _ f => some (0x01, f)
  | .vsub _ f => some (0x02, f)
  | .vmul _ f => some (0x03, f)
  | .vfma _ f => some (0x04, f)
  | .vfms _ f => some (0x05, f)
  | .vfnma _ f => some (0x06, f)
  | .vmin _ f => some (0x07, f)
  | .vmax _ f => some (0x08, f)
  | .vabs _ f => some (0x09, f)
  | .vneg _ f => some (0x0A, f)
  | .vmov _ f => some (0x0B, f)
  | .vsel _ f => some (0x0C, f)
  | .vcmpeq _ f => some (0x10, f)
  | .vcmplt _ f => some (0x11, f)
  | .vcmple _ f => some (0x12, f)
  | .vand _ f => some (0x18, f)
  | .vor _ f => some (0x19, f)
  | .vxor _ f => some (0x1A, f)
  | .vnot _ f => some (0x1B, f)
  | .vshl _ f => some (0x1C, f)
  | .vshr _ f => some (0x1D, f)
  | .vsha _ f => some (0x1E, f)
  | .vcvt _ f => some (0x20, f)
  | .vclamp _ f => some (0x21, f)
  | .vbcast _ f => some (0x22, f)
  | .viota _ f => some (0x23, f)
  | .vrsum _ f => some (0x28, f)
  | .vcsum _ f => some (0x29, f)
  | .vrmax _ f => some (0x2A, f)
  | .vcmax _ f => some (0x2B, f)
  | .vtrn _ f => some (0x2C, f)
  | .lds f => some (0x01, f)
  | .sts f => some (0x02, f)
  | .ldg f => some (0x03, f)
  | .stg f => some (0x04, f)
  | .ldo f => some (0x05, f)
  | .sto f => some (0x06, f)
  | .gath f => some (0x08, f)
  | .scat f => some (0x09, f)
  | .scadd f => some (0x0A, f)
  | .vatom f => some (0x0B, f)
  | .xcp f => some (0x01, f)
  | .qxch f => some (0x02, f)
  | .gshf f => some (0x03, f)
  | .gred f => some (0x04, f)
  | .gscan f => some (0x05, f)
  | .gseg f => some (0x06, f)
  | .confd f => some (0x07, f)
  | .vrcp f => some (0x10, f)
  | .vsqrt f => some (0x11, f)
  | .vrsq f => some (0x12, f)
  | .vexp2 f => some (0x13, f)
  | .vlog2 f => some (0x14, f)
  | .eext f => some (0x20, f)
  | .eins f => some (0x21, f)
  | .eadd f => some (0x22, f)
  | .esub f => some (0x23, f)
  | .emul f => some (0x24, f)
  | .emov f => some (0x25, f)
  | .ecmp f => some (0x26, f)
  | .anyk f => some (0x28, f)
  | .allk f => some (0x29, f)
  | .setsh f => some (0x30, f)
  | .globalLoadSectorLand _ _ _ => none
  | .storePerformAtHome _ _ => none
  | .storeAck _ => none
  | .atomicReturn _ => none
  | .walkComplete _ _ => none
  | .mergeEntryRetry _ => none
  | .faultAnswerRetry _ _ => none
  | .faultAnswerFail _ _ => none
  | .tlbInvalidate _ _ => none
  | .tlbInvalidateDone _ => none
  | .matrixCommandStart _ _ => none
  | .matrixKstepDone _ _ => none
  | .predictionWake _ => none
  | .mordantCommandRun _ _ => none
  | .copyStart _ _ => none
  | .copyComplete _ _ _ => none
  | .ringSlotServe _ _ _ => none
  | .gatherRequestStart _ => none
  | .lkfetchLand _ => none
  | .ochreThreadEnd _ _ => none
  | .collInstanceForm _ => none
  | .collComplete _ _ => none
  | .turnService _ => none
  | .groupDrainEnd _ _ => none
  | .deadTimeEnd _ _ => none
  | .dwellEnd _ _ => none
  | .turnBudgetWindow => none
  | .autoWindowEnd _ _ _ => none
  | .autoEntry _ => none
  | .binAccept _ _ => none
  | .binTimerExpire _ _ => none
  | .launchQueueTake _ _ => none
  | .placeGroup _ => none
  | .frontEndStarvation _ => none
  | .preemptCandidate _ => none
  | .preempt _ _ => none
  | .hardPreemptBound _ _ _ => none
  | .saveRecordWrite _ _ _ => none
  | .resume _ _ _ => none
  | .causeArrive _ _ _ _ => none
  | .faultRecordDrain _ => none
  | .faultMsix _ => none
  | .hostPostedWrite _ _ => none
  | .hostNonpostedRequest _ _ => none
  | .bar2Access _ _ => none
  | .sysReleaseFlushRead _ => none
  | .indigoSlot _ _ => none
  | .indigoDelivery _ _ => none
  | .escapeTimeout _ _ => none
  | .routerPowerDown _ _ => none
  | .routerWake _ _ => none
  | .linkReplay _ _ _ _ _ => none
  | .airufoldPortRetire _ => none
  | .dieContain _ _ => none
  | .dieWatchdog _ => none
  | .dieReadmit _ _ => none
  | .pcieLinkDown _ => none
  | .hostCompletionTimeout _ => none
  | .memoryScrub _ _ => none
  | .correctedErrorRecord _ _ _ => none
  | .evictionError _ => none
  | .bringupStage _ => none
  | .gateUpdate _ => none
  | .dieThermalHold _ => none
  | .partitionForm _ => none
  | .lqcfgWrite _ _ _ => none
  | .lqbaseWrite _ _ _ => none
  | .lqwpWrite _ _ _ => none
  | .fqcfgWrite _ _ => none
  | .fqrpWrite _ _ => none
  | .imginv _ _ => none
  | .imginvDone _ => none
  | .featackWrite _ _ _ => none
  | .pwrcapWrite _ _ => none
  | .diectlWrite _ _ => none
  | .attctlGo _ _ => none
  | .attestDone _ => none
  | .mgmtRegisterWrite _ _ _ => none
  | .powerGood => none
  | .pcieLinkTrained _ => none
  | .airufoldRouteGiveUp _ _ => none
  | .fansIgnoredWrite _ _ => none
  | .airufoldInboundRequest _ => none

/-- The 64 bits of a tile instruction's slot (R87). -/
def encodeSlot (i : Instr) : Option (BitVec 64) :=
  match slotOpcode i with
  | some (op, f) =>
    some (0x0#4 ++ f.fill ++ f.lit ++ f.md ++ f.sat ++ f.rm ++ f.kind ++ f.srcc ++ f.srcb ++ f.srca ++ f.dst
      ++ f.sh ++ f.fmt ++ op)
  | none => none

/-- The encoding of an instruction: its word, or its slot; an event of the machine has none. -/
def encode (i : Instr) : Option (BitVec 32 ⊕ BitVec 64) :=
  match encodeWord i with
  | some w => some (.inl w)
  | none => (encodeSlot i).map .inr

/-- The literals an expanded tile operation names (R84, R158). -/
def slotLiteral (i : Instr) : Nat :=
  match slotOpcode i with
  | some (_, f) => f.lit.toNat
  | none => 0

/-- Control-transfer words (R102). -/
def Instr.transfers : Instr → Bool
  | .br .. | .brl .. | .bz .. | .bnz .. | .buk .. | .bunk .. | .bdk .. | .bdnk .. | .bdkLong .. | .bdnkLong ..
  | .jr .. | .jrl .. | .loop .. | .loops .. | .lbrk .. | .trap .. | .rte | .yield .. => true
  | _ => false

/-- The instruction read from an instruction whose bits are w, numbered as the opcode table numbers them: a 32-bit
scalar or command word is stored little-endian (R1), so its bits are the word's own. Rows without bits have no
encoding of their own here: tile operations stand in control words, events in no stream. -/
def decodeTableWord (nbits w : Nat) : Option Instr :=
  if nbits = 32 then (decodeWord (BitVec.ofNat 32 w)).toOption else none

end Sys2Proof
end

