-- ==== Sys2Proof/Machine/State.lean ====
section
/-!
DEFINITION. The state of one QX24 module as plain data: what the manual gives the machine, each piece under the
rule that names it (INVENTORY.md lists them), then the reset state, the faults and the refusals.
-/
namespace Sys2Proof.Machine

/-- A map from numbers, keys strictly rising. -/
abbrev NMap (α : Type) := List (Nat × α)

/-- Global memory as the bytes that differ from what an unlisted address reads as (log 2). -/
abbrev Memory := List Host.Cell

/-- The paths of R124, codes 0 to 6. -/
inductive Path where
  | scalar | tile | copy | matrix | gather | coll | quant
  deriving DecidableEq, Repr

/-- The scopes of R264, codes 0 to 4. -/
inductive Scope where
  | gang | core | die | pkg | sys
  deriving DecidableEq, Repr

/-- What an access needs of a leaf (R244). -/
inductive AccessKind where
  | read | write | atomic | fetch
  deriving DecidableEq, Repr

/-- A context by its place. -/
structure CtxRef where
  die : Nat
  core : Nat
  ctx : Nat
  deriving DecidableEq, Repr

/-- A cause on its way to a part: code, kind, TRAPVAL, engine, the faulting bundle and the count it issued at,
whether a handler's own operation raised it and which entry of the handler that was, when it arose and the unit that
raised it, the issue order of its bundle, and whether its record is written already (R346, R353, R354, R359, R360). -/
structure Cause where
  code : BitVec 8
  kind : BitVec 3
  val : Word
  eng : Nat
  pc : Word
  at_ : Word
  inHandler : Bool
  time : Nat
  unit : Nat := 0
  gen : Nat := 0
  order : Nat := 0
  recorded : Bool := false
  deriving DecidableEq, Repr

/-- One level of the loop unit (R131). -/
structure LoopLevel where
  start : Word
  last : Word
  rem : Nat
  iter : Nat
  bind : List (Nat × Word)
  deriving DecidableEq, Repr

/-- One entry of the reconvergence stack (R41). -/
structure StackEntry where
  split : Bool
  ph : Bool
  join : Word
  resume : Word
  full : BitVec 16
  pend : BitVec 16
  deriving DecidableEq, Repr

/-- Where an exposed result goes (R92): bits of a tile register under a mask, an engine scalar, a condition bit or a
shape register, each of one engine. -/
inductive Dest where
  | tile (eng : Nat) (cl : Cluster) (reg : Nat) (val mask : TileBits)
  | e (eng reg : Nat) (val : Word)
  | k (eng reg : Nat) (val : Bool)
  | sh (eng reg : Nat) (val : BitVec 8)
  deriving DecidableEq, Repr

/-- A result not landed yet: R more bundles of the part until it is visible (R94, R295). order is its place in the
issue order of results and accesses, bundle the first place of its bundle (R91, R170); latched says that a hard save put it
into the snapshot latches (R295, R415). -/
structure Pending where
  r : Nat
  order : Nat
  bundle : Nat := 0
  latched : Bool := false
  dest : List Dest
  deriving DecidableEq, Repr

/-- What a lookahead window waits for (R103). -/
inductive LaTarget where
  | access (id : Nat)
  | command (id : Nat)
  deriving DecidableEq, Repr

/-- A lookahead window: bundles that may still issue before the part waits. -/
structure LaWait where
  left : Nat
  target : LaTarget
  deriving DecidableEq, Repr

/-- A fence in force (R123 to R125): paths names X and Y, or none for FENCE; before is the issue number it stands at;
both marks the order a rejoin leaves, over the accesses of both halves (R272). -/
structure FenceMark where
  paths : Option (Path × Path)
  scope : Scope
  before : Nat
  both : Bool
  deriving DecidableEq, Repr

/-- What a part waits for (R39): a WAITC's counter and limit, a YIELD's deadline and bundle, a barrier, the descriptor,
side and scope of a SLOTWAIT whose bundle is held (R144), a predicted completion and its accumulator. -/
inductive Wait where
  | waitc (c lim : Nat)
  | yield (until_ : Nat) (addr : Word)
  | barwt (n : Nat)
  | slotwait (desc : Word) (prod : Bool) (scope : Scope)
  | predict (at_ acc : Nat)
  deriving DecidableEq, Repr

/-- What a part records at trap entry (R350): its mask and depths, its latches, its lookahead windows and the first
cause. -/
structure HandlerEntry where
  am : BitVec 16
  loopDepth : Nat
  stackDepth : Nat
  pend : List Pending
  la : List LaWait
  code : BitVec 8
  deriving DecidableEq, Repr

/-- The bundle being issued: its part, its address, the register values its words read (R102), the mask its slots
use (R94), the context CSRs as its words read them (R102), its literals, its END flag, whether a transfer is taken, the word at work, all its words, FTZ and UCHK as
they stood (R146), whether its checks have all been made (R362), what its words read before it issued, by word (R133,
R144), the number the first access or command it begins takes, whether it pushed a loop level (R136), and
whether its last slots run now, after it was counted. -/
structure Issue where
  part : PartRef
  addr : Word
  src : NMap Word
  csr : NMap Word
  am : BitVec 16
  lits : List (BitVec 32)
  ends : Bool
  taken : Bool
  word : Nat
  words : List Instr
  ftz : Bool
  uchk : Bool
  checked : Bool
  mem : NMap (List Byte) := []
  first : Nat := 0
  pushed : Bool := false
  late : Bool := false
  deriving DecidableEq, Repr

/-- What a bundle still owes once it waits for nothing: the exit of an END bundle's lanes (R44), or a TRAP's cause with the
bundle after its own, or an RTE's return, by the RTE's address (R346, R352). -/
inductive Last where
  | exit (am : BitVec 16)
  | trap (q : Cause) (next : Word)
  | rte (addr : Word)
  deriving DecidableEq, Repr

/-- A thread of scalar control: a part of a context (R48, R110) or an Ochre thread (R209). seen holds the accesses of
other contexts of the core whose stores the part has read before their homes acknowledged them (R120, R267); issued is
the part's own count, hissued that of its handlers' bundles, which leave the own count where it was, and hgen how often
a handler was entered (R147, R348, R350, R353); last is what its latest bundle owes when its waits end (R44, R346); late
the slots of that bundle that stand behind an acquire of its own, with its issue record (R120, R269); dep the own stores
that registers, branches (key 32) and tiles (33) depend on through a load that took their value early (R269); cwtLoad the
LDCWTs that hold its decode (R150); due says that a SLOTWAIT's wait has ended and its bundle issues before a pending cause
is taken (R144, R354); frozenFrom is the cycle from which frozen holds it (R356). -/
structure Thread where
  regs : NMap Word
  pc : Word
  am : BitVec 16
  loops : List LoopLevel
  stack : List StackEntry
  issued : Word
  pend : List Pending
  la : List LaWait
  fences : List FenceMark
  shadow : NMap Word
  trapcause : Word
  trappc : Word
  trapval : Word
  handler : Option HandlerEntry
  causes : List Cause
  waits : List Wait
  last : Option Last
  arrived : Bool
  atSafe : Bool
  cwtLoad : List Nat
  frozen : Bool
  seen : List Nat
  hissued : Word
  hgen : Nat
  due : Bool
  late : Option (Issue × List Instr) := none
  dep : NMap (List Nat) := []
  frozenFrom : Nat := 0
  deriving DecidableEq, Repr

/-- A thread at rest: every register zero. -/
def Thread.zero : Thread :=
  { regs := [], pc := 0, am := 0, loops := [], stack := [], issued := 0, pend := [], la := [], fences := [],
    shadow := [], trapcause := 0, trappc := 0, trapval := 0, handler := .none, causes := [], waits := [],
    last := .none, arrived := false, atSafe := false, cwtLoad := [], frozen := false, seen := [],
    hissued := 0, hgen := 0, due := false }

/-- One engine's registers of a context (R19, R37). -/
structure Engine where
  e : NMap Word
  k : BitVec 4
  sh : NMap (BitVec 8)
  ob : NMap (BitVec 128)
  ta : NMap TileBits
  tb : NMap TileBits
  acc : NMap AccBits
  deriving DecidableEq, Repr

/-- An engine cleared: an unlisted shape register holds 0x33, every other register zero (R37). -/
def Engine.zero : Engine := { e := [], k := 0, sh := [], ob := [], ta := [], tb := [], acc := [] }

/-- The states of a context (R39). -/
inductive CtxState where
  | empty | starting | ready | issuing | resident | blocked | draining
  deriving DecidableEq, Repr

/-- A launch record (R275). -/
structure LaunchRecord where
  image : Nat
  kernel : Nat
  lanes : Nat
  regA : Nat
  regB : Nat
  acc : Nat
  spad : Nat
  osbB : Nat
  osbR : Nat
  gsize : Nat
  ctl : BitVec 8
  prio : BitVec 8
  nprog : Nat
  arg : Word
  dieMask : BitVec 32
  coreMask : Word
  preb : Nat
  compl : Word
  deriving DecidableEq, Repr

/-- A record of zeros. -/
def LaunchRecord.zero : LaunchRecord :=
  { image := 0, kernel := 0, lanes := 0, regA := 0, regB := 0, acc := 0, spad := 0, osbB := 0, osbR := 0, gsize := 0,
    ctl := 0, prio := 0, nprog := 0, arg := 0, dieMask := 0, coreMask := 0, preb := 0, compl := 0 }

/-- Which program a context holds and for whom (R37, R279, R298): partition, launch SEQ, s2, cluster group, member,
source queue or bin. -/
structure ProgId where
  part : Nat
  seq : Nat
  prog : Nat
  group : Nat
  mem : Nat
  bin : Option (Nat × Nat)
  queue : Nat
  prio : Nat
  deriving DecidableEq, Repr

/-- No program. -/
def ProgId.zero : ProgId :=
  { part := 0, seq := 0, prog := 0, group := 0, mem := 0, bin := .none, queue := 0, prio := 0 }

/-- A pre-emption request pending for a context (R292). -/
inductive PreemptSource where
  | waiting | priority | driver
  deriving DecidableEq, Repr

/-- How far a save or a resume has come (R294, R296, R299). -/
inductive SavePhase where
  | none
  | holding (hard : Bool) (slot : Nat)
  | writing (hard : Bool) (slot : Nat)
  | resuming (slot : Nat)
  deriving DecidableEq, Repr

/-- An arrival at a barrier not counted yet: the accesses issued before id must be performed first (R140). -/
structure Arrival where
  bar : Nat
  before : Nat
  deriving DecidableEq, Repr

/-- A context bank and the gang program it holds (R18, R37, R38). entry is the address of its kernel table entry, slots
its image's slot table once read (R277, R302), helpSpare the helpers that its split attached to the spare half
(R49), faulted says that its program ended by a fault (R404). -/
structure Context where
  st : CtxState
  lrec : LaunchRecord
  prog : ProgId
  slots : List (BitVec 32)
  handlerAddr : Word
  entry : Word
  lm : BitVec 16
  ftz : Bool
  uchk : Bool
  udis : Bool
  arstat : BitVec 7
  prebound : BitVec 32
  wc : NMap Nat
  main : Thread
  spare : Option Thread
  base : List StackEntry
  helpSpare : BitVec 16
  mg : NMap (BitVec 128)
  tl : NMap (BitVec 128)
  eng : NMap Engine
  spadBase : Nat
  osbBase : Nat
  arrive : NMap Nat
  counted : NMap Nat
  arrivals : List Arrival
  posts : List Word
  cpyy : Nat
  stamp : Nat
  streak : Nat
  starve : Nat
  safeFrom : Nat
  blockedAt : Nat
  placedAt : Nat
  want : Option PreemptSource
  save : SavePhase
  budgetWin : Nat
  budgetUsed : Nat
  inbox : List (Bool × Cause)
  ended : Bool
  faulted : Bool := false
  deriving DecidableEq, Repr

/-- An EMPTY context: no program, every register zero. -/
def Context.zero : Context :=
  { st := .empty, lrec := .zero, prog := .zero, slots := [], handlerAddr := 0, entry := 0, lm := 0, ftz := false,
    uchk := false, udis := false, arstat := 0, prebound := 0, wc := [], main := .zero, spare := .none, base := [],
    helpSpare := 0, mg := [], tl := [], eng := [], spadBase := 0, osbBase := 0, arrive := [], counted := [], arrivals := [],
    posts := [], cpyy := 0, stamp := 0, streak := 0, starve := 0, safeFrom := 0, blockedAt := 0, placedAt := 0,
    want := .none, save := .none, budgetWin := 0, budgetUsed := 0, inbox := [], ended := false }

/-- A translation held by a TLB: virtual page number in units of its size, leaf (R251). -/
structure TlbEntry where
  vbase : Nat
  size : Nat
  leaf : Word
  deriving DecidableEq, Repr

/-- A 64-byte instruction-cache line of an image (R56, R82). -/
structure ILine where
  image : Nat
  va : Nat
  words : List (BitVec 32)
  deriving DecidableEq, Repr

/-- Who issued a command: context, half, bundle, the part's count, whether its handler did and in which entry, and the
place of the bundle in the module's issue order, and when it issued. -/
structure Issuer where
  ctx : CtxRef
  spare : Bool
  pc : Word
  at_ : Word
  inHandler : Bool
  gen : Nat := 0
  order : Nat := 0
  since : Nat := 0
  deriving DecidableEq, Repr

/-- A matrix command with what it captured at issue (R189, R196). sent: the sectors that its next K-step reads from other
cores are on the Indigo plane (R304). -/
structure MatrixCmd where
  id : Nat
  by_ : Issuer
  tern : Bool
  sa : Word
  sb : Word
  mg : BitVec 128
  am : BitVec 16
  obs : NMap (BitVec 128 × BitVec 128)
  predicted : Nat
  running : Bool
  step : Nat
  stepAt : Nat
  flags : BitVec 7
  sent : Bool := false
  deriving DecidableEq, Repr

/-- The Mordant commands (R200 to R203). -/
inductive MordantOp where
  | qres (z : Bool)
  | qcvt (src : Nat)
  | qprune
  | qrel
  deriving DecidableEq, Repr

/-- A Mordant command with its captured record number, masks and progress (R189, R235): counters of the touched
blocks when QPRUNE's regions were written. -/
structure MordantCmd where
  id : Nat
  by_ : Issuer
  op : MordantOp
  ob : Nat
  sa : Word
  sb : Word
  am : BitVec 16
  obs : NMap (BitVec 128)
  phase : Nat
  gens : NMap (List (Nat × BitVec 32))
  flags : BitVec 7
  deriving DecidableEq, Repr

/-- A copy with its captured layout records (R189, R205, R206). bad holds the 64 KiB regions of virtual memory that a
failed answer has closed to it, with their causes (R357); landed the blocks of other cores, by core, engine and block, whose
counters it has advanced (R230). -/
structure CopyCmd where
  id : Nat
  by_ : Issuer
  sa : Word
  sb : Word
  src : BitVec 128
  dst : BitVec 128
  am : BitVec 16
  gang : Bool
  cont : Option Word
  obs : NMap (BitVec 128 × BitVec 128)
  started : Bool
  moved : NMap Nat := []
  ahead : NMap (List (Byte × Bool)) := []
  wrote : NMap Nat := []
  bumped : List Nat := []
  bad : NMap (BitVec 8) := []
  landed : List (Nat × Nat × Nat) := []
  deriving DecidableEq, Repr

/-- A ring the stream engine serves (R207). moved: the bytes of its slot are written and their counter is not (R270). -/
structure RingCmd where
  id : Nat
  by_ : Issuer
  prod : Bool
  sys : Bool
  desc : Word
  base : Word
  tl : BitVec 128
  moved : Bool := false
  deriving DecidableEq, Repr

/-- What stands in a stream engine's queue (R189). -/
inductive StreamItem where
  | copy (c : CopyCmd)
  | ring (r : RingCmd)
  deriving DecidableEq, Repr

/-- A transfer of the Indigo plane (R301, R304): the number of the window access it serves and its part, source
position and destinations, when its sector is ready and when it lands, and what a store still has to write: core,
engine, scratchpad byte and bytes; of a read, the sectors it carries, core, engine and sector, and the other accesses it
serves too; copy says that the stream engine sends it for a copy. -/
structure IndigoTransfer where
  id : Nat
  who : PartRef
  src : Nat
  dsts : BitVec 4
  readyAt : Nat
  landsAt : Option Nat
  writes : List (Nat × Nat × Nat × List Byte)
  reads : List (Nat × Nat × Nat) := []
  also : List (PartRef × Nat) := []
  copy : Bool := false
  deriving DecidableEq, Repr

/-- The Indigo controller of a cluster: the image whose table is active, the table, whose turn a free slot is, its transfers,
and the cycle of the last slot used (R301 to R304). -/
structure Indigo where
  image : Option Nat
  table : List (BitVec 32)
  turn : Nat
  waiting : List IndigoTransfer
  flying : List IndigoTransfer
  lastSlot : Option Nat
  deriving DecidableEq, Repr

def Indigo.zero : Indigo := { image := .none, table := [], turn := 0, waiting := [], flying := [], lastSlot := .none }

/-- A scratchpad write of the current cycle: the rank of its agent, the engine, first byte and length (R256). -/
structure SpadWrite where
  rank : Nat
  eng : Nat
  first : Nat
  len : Nat
  deriving DecidableEq, Repr

/-- A core (R18). writtenAt and written are the cycle of its latest scratchpad writes and these (R256). lastIssue is the
cycle in which its primary (0) and its spare sequencer (1) last issued (R38), and lastWho for which context; progressAt is when a sequencer (0 and 1) or
unit (2 the matrix sequencer, 3 Mordant, 4 the stream engine's copies, 5 its rings) last made progress (R402); switchedAt the first cycle in which a slot's bank may issue after its last switch (R40). -/
structure Core where
  issuing : NMap Nat
  heldFrom : NMap Nat
  spareOwner : Option Nat
  cwt : NMap (NMap (BitVec 256))
  cwtTag : NMap Nat
  spad : NMap TileBits
  gen : NMap (BitVec 32)
  osb : NMap TileBits
  tlb : List TlbEntry
  l1 : List Nat
  icache : List ILine
  matq : List MatrixCmd
  morq : List MordantCmd
  strq : List StreamItem
  copies : List CopyCmd
  rings : List RingCmd
  ringNext : Nat
  lastIssue : NMap Nat
  writtenAt : Nat
  written : List SpadWrite
  progressAt : NMap Nat
  switchedAt : NMap Nat := []
  lastWho : NMap Nat := []
  deriving DecidableEq, Repr

/-- A core after reset. -/
def Core.zero : Core :=
  { issuing := [], heldFrom := [], spareOwner := .none, cwt := [], cwtTag := [], spad := [], gen := [], osb := [],
    tlb := [], l1 := [], icache := [], matq := [], morq := [], strq := [], copies := [], rings := [], ringNext := 0,
    lastIssue := [], writtenAt := 0, written := [], progressAt := [] }

/-- Who waits on a merge-table entry (R252, R383). -/
inductive Requester where
  | access (id : Nat)
  | fetch (p : PartRef)
  | loops (p : PartRef)
  | starting (c : CtxRef)
  | mordant (die core id : Nat)
  | stream (die core id : Nat)
  | ring (die core id : Nat)
  | coll (inst mem : Nat)
  | saving (c : CtxRef)
  | queue (part q : Nat)
  | parked (part id : Nat)
  | ochre (die idx : Nat)
  deriving DecidableEq, Repr

/-- A requester on a list: its access kind and address (R383). -/
structure MergeWaiter where
  who : Requester
  kind : AccessKind
  va : Nat
  helper : Bool
  deriving DecidableEq, Repr

/-- A merge-table entry: a region being walked or faulted (R252, R383, R384). started is the place of its walk among those
of the module. -/
structure MergeEntry where
  region : Nat
  part : Nat
  list : List MergeWaiter
  faulted : Bool
  code : BitVec 8
  use : BitVec 16
  started : Nat := 0
  deriving DecidableEq, Repr

/-- A request for the gather engine (R208). newer lists the bytes that later requests of its context have delivered: whether
to the OSB, engine, first byte and length (R263). -/
structure GatherReq where
  id : Nat
  by_ : Issuer
  eng : Nat
  addr : Word
  dst : Word
  ob : Option (BitVec 128)
  obN : Nat
  newer : List (Bool × Nat × Nat × Nat) := []
  deriving DecidableEq, Repr

/-- An Ochre core with the request it runs (R209 to R211). -/
structure Ochre where
  thread : Thread
  req : Option GatherReq
  store : NMap Byte
  cam : NMap Word
  wc : NMap Nat
  handed : Nat
  lasts : Nat
  done : Bool
  fail : Option (BitVec 8)
  starting : Bool
  movedAt : Nat := 0
  deriving DecidableEq, Repr

def Ochre.zero : Ochre :=
  { thread := .zero, req := .none, store := [], cam := [], wc := [], handed := 0, lasts := 0, done := false,
    fail := .none, starting := false }

/-- A batch of a bin whose program has not retired, or the open one (R281): its own number in the module, its number
since the NODESET, its first slot, its records, when it opened, the bin's buffer then, whether it is due, whether its
program has been launched, the SEQ it takes once its launch has begun, and whether its batch entry is written (R289). -/
structure Batch where
  id : Nat
  num : Nat
  first : Nat
  count : Nat
  openedAt : Nat
  buf : Word
  closed : Bool
  launched : Bool
  seq : Option Nat := none
  stored : Bool := false
  deriving DecidableEq, Repr

/-- A work-graph bin (R218, R280, R281). next is the slot the next record takes. -/
structure Bin where
  buf : Word
  coal : Nat
  rsize : Nat
  timer : Nat
  cap : Nat
  next : Nat
  batches : List Batch
  nextBatch : Nat
  deriving DecidableEq, Repr

def Bin.zero : Bin :=
  { buf := 0, coal := 0, rsize := 0, timer := 0, cap := 0, next := 0, batches := [], nextBatch := 0 }

/-- The message classes of the Umber plane, in their order (R305). -/
inductive MsgClass where
  | req | fwd | rsp | walk | eng | mgt
  deriving DecidableEq, Repr

/-- A packet of the Umber plane: its requester's number, its place among the requester's packets, its class and its flits
(R305, R306). -/
structure Packet where
  id : Nat
  n : Nat
  cls : MsgClass
  flits : Nat
  deriving DecidableEq, Repr

/-- Where a packet at a router's input port stands: it waits for buffers, holds shared ones, or holds the escape channel
of its class (R306). -/
inductive BufferPlace where
  | waiting | shared | escape
  deriving DecidableEq, Repr

/-- A packet at an input port of a router, 0 from its own core or slices and 1 from the mesh, since when. -/
structure Buffered where
  port : Nat
  packet : Packet
  since : Nat
  place : BufferPlace
  deriving DecidableEq, Repr

/-- A router of a die's Umber plane (R305 to R308): whether it is powered down, when it went down, when it is up after a wake,
when it last carried a flit or woke, and the packets at its input ports, as they came. -/
structure Router where
  down : Bool
  downAt : Nat
  upAt : Nat
  idleFrom : Nat
  held : List Buffered
  deriving DecidableEq, Repr

def Router.zero : Router := { down := false, downAt := 0, upAt := 0, idleFrom := 0, held := [] }

/-- DIESTAT's states of a die (R407). -/
inductive DieStatus where
  | running | contained | readmitting | held
  deriving DecidableEq, Repr

/-- A compute die outside its cores (R17, R249 to R252, R284, R331, R402 to R407). l2 lists the lines that each of its 24
L2 slices holds, the most recently used first; poisonAll says that re-admission wrote every line of its HBM poisoned
(R406): State.poison then lists the lines that are not. -/
structure Die where
  status : DieStatus
  readmitStep : Nat
  gate : Nat
  junction : Nat
  inReset : Bool
  lastCore : Nat
  lastCluster : Nat
  l2 : NMap (List Nat)
  l2tlb : List TlbEntry
  merge : NMap MergeEntry
  uses : NMap (BitVec 16)
  misses : List (Nat × Nat × MergeWaiter)
  gq : List GatherReq
  ochre : NMap Ochre
  bins : NMap Bin
  routers : NMap Router
  corrected : NMap (Nat × Option Nat)
  hot : Bool
  poisonAll : Bool
  deriving DecidableEq, Repr

/-- A die after reset: the pointers of R284 at 47 and 11, no gating. -/
def Die.zero : Die :=
  { status := .running, readmitStep := 0, gate := 255, junction := 0, inReset := true, lastCore := 47,
    lastCluster := 11, l2 := [], l2tlb := [], merge := [], uses := [], misses := [], gq := [], ochre := [], bins := [],
    routers := [], corrected := [], hot := false, poisonAll := false }

/-- A queued turn request (R311), with the cycle it was entered in, the half and the register its status returned to. -/
structure TurnReq where
  ctx : CtxRef
  die : Nat
  target : Nat
  prio : Nat
  cycle : Nat := 0
  spare : Bool := false
  rd : Nat := 0
  deriving DecidableEq, Repr

/-- What the turning group of a link is doing (R310). -/
inductive TurnPhase where
  | drain | dead (until_ : Nat)
  deriving DecidableEq, Repr

/-- A group that is turning: its number, its new direction, its phase and the charge of its turn. -/
structure Turning where
  group : Nat
  up : Bool
  phase : TurnPhase
  deriving DecidableEq, Repr

/-- A Witas link and its controller (R309 to R316, R398). up holds the groups carrying toward the higher end, autoWin the
last 10 µs window whose end AUTO has looked at; asked the requests that reached the queue in the cycle of the last one, and
before the queue as that cycle found it (R311). -/
structure Link where
  up : BitVec 16
  retired : BitVec 16
  turning : Option Turning
  dwell : NMap Nat
  queue : List TurnReq
  serving : Option TurnReq
  lastHigh : Bool
  auto : Bool
  lastTurn : Nat
  boundary : Bool
  closed : Bool
  crc : NMap Nat
  autoWin : Nat := 0
  asked : List TurnReq := []
  before : List TurnReq := []
  deriving DecidableEq, Repr

/-- A link after reset: groups 0 to 7 toward the higher-numbered end (R309), AUTO (R315). -/
def Link.zero : Link :=
  { up := 0x00FF, retired := 0, turning := .none, dwell := [], queue := [], serving := .none, lastHigh := true,
    auto := true, lastTurn := 0, boundary := false, closed := false, crc := [] }

/-- A fault record (R360). -/
structure FaultRecord where
  code : BitVec 8
  kind : BitVec 8
  flags : BitVec 16
  src : BitVec 32
  seq : BitVec 32
  prog : BitVec 32
  pc : Word
  val : Word
  val2 : Word
  time : Word
  issued : Word
  deriving DecidableEq, Repr

/-- A launch accepted and not complete (R282, R288). next is the s2 of the first program never placed, back those of
programs that a request released from STARTING (R287), saved the slots of its saved programs in order of saving. -/
structure Launch where
  seq : Nat
  lrec : LaunchRecord
  recAddr : Word
  queue : Nat
  bin : Option (Nat × Nat × Nat)
  prio : Nat
  next : Nat
  back : List Nat
  retired : Nat
  saved : List Nat
  lastDie : Option Nat
  waitFrom : Nat
  starved : Bool
  entryAddr : Word
  imageEntry : List Word
  deriving DecidableEq, Repr

/-- A program saved in a slot (R296, R297): which program, with what declarations, whether it was frozen hard and
whether its bank's CWT tag held its image, its place among saved programs, and the context it was saved from. Its registers and masks stand as a
context of their own, at the place savedPlace names; its bytes stand in the save record. doom is the cause and value it
ends with when it is placed (R394, R403). -/
structure Saved where
  slot : Nat
  prog : ProgId
  lrec : LaunchRecord
  hard : Bool
  tagged : Bool
  order : Nat
  home : CtxRef
  doom : Option (BitVec 8 × Word) := none
  deriving DecidableEq, Repr

/-- One MSI-X table entry (R317, R320): message address and data, mask, pending. -/
structure MsixEntry where
  addr : Word
  data : BitVec 32
  mask : Bool
  pending : Bool
  deriving DecidableEq, Repr

def MsixEntry.zero : MsixEntry := { addr := 0, data := 0, mask := true, pending := false }

/-- A store of the partition's own not performed yet (R289): a completion word of a launch, with the queue it came
from, or a bin's batch entry. die is where it translates. -/
inductive Parked where
  | compl (id die seq : Nat) (addr value : Word) (queue : Option Nat)
  | batch (id die bin b : Nat)
  deriving DecidableEq, Repr

/-- A launch queue's registers (R278). -/
structure LaunchQueue where
  base : BitVec 51
  en : Bool
  log2 : BitVec 5
  wp : BitVec 32
  rp : BitVec 32
  ovf : Bool
  deriving DecidableEq, Repr

def LaunchQueue.zero : LaunchQueue := { base := 0, en := false, log2 := 0, wp := 0, rp := 0, ovf := false }

/-- A partition: its registers, queues, launches and host port (R25, R26, R29). cfg holds what the host has last written to
registers of its function's configuration space, msixOn the enable of MSI-X among them (R317, R320, R327). flush lists the writes to host memory
that no zero-length read has followed yet (R274). -/
structure Partition where
  formed : Bool
  dies : BitVec 24
  resetting : Bool
  ptrootV : Bool
  ptroot : BitVec 40
  tlbVpn : BitVec 41
  tlbScope : BitVec 2
  tlbDone : Bool
  bwin : NMap (BitVec 128)
  fanStale : Bool
  lq : NMap LaunchQueue
  saveBase : BitVec 33
  saveCnt : BitVec 16
  preDone : Bool
  preAll : Bool
  preDie : BitVec 5
  preCore : BitVec 6
  preCtx : BitVec 3
  preNamed : List CtxRef
  imgBase : BitVec 51
  imgCnt : BitVec 16
  imgDone : Bool
  imgNum : BitVec 16
  imgDead : List Nat
  fqBase : BitVec 46
  fqEn : Bool
  fqLog2 : BitVec 5
  fqWp : BitVec 32
  fqRp : BitVec 32
  holding : List FaultRecord
  behind : List FaultRecord
  msixLast : Option Nat
  msixOwed : Bool
  msix : NMap MsixEntry
  signalled : List Nat
  feat : BitVec 128
  cfgfp : Word
  capEn : Bool
  cap : BitVec 16
  pwrCause : BitVec 3
  tmax : BitVec 8
  hbmW : BitVec 16
  dieW : BitVec 16
  hold : BitVec 24
  attAddr : BitVec 38
  attRun : Option (BitVec 38)
  pcieUp : Bool
  d3 : Bool
  seq : BitVec 32
  launches : List Launch
  savedProgs : List Saved
  saveOrder : Nat
  parked : List Parked
  posted : List HostWrite
  replies : List (Option (List Byte) × Bool)
  asks : List (Nat × HostRequest)
  bar2 : List HostRequest
  flush : List (PartRef × Path × Nat)
  cfg : NMap (BitVec 32) := []
  msixOn : Bool := false
  deriving DecidableEq, Repr

/-- A partition's registers after reset (R249, R278, R292, R297, R332, R358, R407, R410). -/
def Partition.zero : Partition :=
  { formed := false, dies := 0, resetting := false, ptrootV := false, ptroot := 0, tlbVpn := 0, tlbScope := 0,
    tlbDone := true, bwin := [], fanStale := false, lq := [], saveBase := 0, saveCnt := 0, preDone := true,
    preAll := false, preDie := 0, preCore := 0, preCtx := 0, preNamed := [], imgBase := 0,
    imgCnt := 0, imgDone := true, imgNum := 0, imgDead := [], fqBase := 0, fqEn := false, fqLog2 := 0, fqWp := 0,
    fqRp := 0, holding := [], behind := [], msixLast := .none, msixOwed := false, msix := [], signalled := [],
    feat := 0, cfgfp := 0, capEn := false, cap := 0, pwrCause := 0, tmax := 0, hbmW := 0, dieW := 0,
    hold := 0, attAddr := 0, attRun := .none, pcieUp := false, d3 := false, seq := 0, launches := [], savedProgs := [],
    saveOrder := 0, parked := [], posted := [], replies := [], asks := [], bar2 := [], flush := [] }

/-- An Airufold port (R398, R409). -/
structure Port where
  retiredAt : Option Nat
  deriving DecidableEq, Repr

/-- What a global access does when it is performed (R117, R121, R169 to R174). -/
inductive AccessOp where
  | loadReg (rd size : Nat) (sgn : Bool)
  | loadTile (cl : Cluster) (reg : Nat)
  | store
  | amo (op : Nat) (size : Nat) (rd : Nat) (cmp : Word)
  | scadd (fmt : Nat)
  | vatom (op fmt : Nat) (ret : Option (Cluster × Nat))
  | lkfetch (dst : Nat)
  | ldcwt (first count : Nat)
  | launch (q rd : Nat)
  | nodeput (die bin : Nat)
  deriving DecidableEq, Repr

/-- Where one sector piece of an access stands. early: a release performed at its home before what it orders, which the
agents of its scope do not see yet (R120, R264). -/
inductive PieceState where
  | open_ | performed | acked | failed (code : BitVec 8) | early
  deriving DecidableEq, Repr

/-- One piece of an access: bytes of one 64-byte sector for one engine (R169, R250). elem orders pieces; off is the
place in the destination; data holds the bytes to store or the operand; old keeps an atomic's old value; entry is the place
of a store to a weak page among those that have entered its core's L1 store path, 0 before it has (R247, R266); took a
load's value, and the stores it came from, taken while an acquire stood before it (R264, R269). -/
structure Piece where
  va : Nat
  len : Nat
  eng : Nat
  elem : Nat
  off : Nat
  data : List Byte
  old : List Byte
  pa : Option Nat
  weak : Bool
  tso : Bool
  helper : Bool
  st : PieceState
  cached : Bool := false
  entry : Nat := 0
  took : Option (List Byte × List Nat) := none
  deriving DecidableEq, Repr

/-- An outstanding global access (R103, R104, R248). dead holds, per engine, the bytes of its destination register
that a later-issued operation has written (R170); index the first engine and element whose index was out of range
(R171); since when it was issued; word its place in its bundle; noReg says that a later word of that bundle wrote the
register it returns to (R102); after the own stores that its data, its address or a branch before it depend on (R269). -/
structure Access where
  id : Nat
  who : PartRef
  by_ : Issuer
  path : Path
  op : AccessOp
  pieces : List Piece
  acq : Option Scope
  rel : Option Scope
  wc : Nat
  dropped : Bool
  dead : NMap TileBits
  index : Option (Nat × Nat) := none
  since : Nat := 0
  word : Nat := 0
  noReg : Bool := false
  after : List Nat := []
  deriving DecidableEq, Repr

/-- A collective instance and its members (R212, R213). -/
structure CollMember where
  id : Nat
  mem : Nat
  by_ : Issuer
  desc : Word
  src : Word
  dst : Word
  written : Bool
  dead : Bool
  places : List (Nat × Nat × Nat) := []
  deriving DecidableEq, Repr

structure CollInst where
  id : Nat
  part : Nat
  group : Nat
  k : Nat
  count : Nat
  nmemb : Nat
  op : Nat
  fmt : Nat
  root : Nat
  members : List CollMember
  mismatch : Bool
  formed : Bool
  results : NMap (List Byte)
  outside : List CollOutside := []
  ahead : NMap (List Byte) := []
  movedAt : Nat := 0
  deriving DecidableEq, Repr

/-- A command that returns a scalar or is accepted by a queue, outstanding for its lookahead (R103). -/
structure ScalarCmd where
  id : Nat
  who : PartRef
  deriving DecidableEq, Repr

/-- Owner tag of a dirty home line (R393). -/
structure OwnerTag where
  part : Nat
  src : BitVec 32
  ctx : Option CtxRef
  seq : Nat
  prog : Nat
  deriving DecidableEq, Repr

/-- No bundle: context 0 of core 0 of die 0. -/
def Issue.zero : Issue :=
  { part := .gang 0 0 0 false, addr := 0, src := [], csr := [], am := 0, lits := [], ends := false, taken := false,
    word := 0, words := [], ftz := false, uchk := false, checked := false }

/-- The lines of memory of a partition as they stood when an image was loaded, those that have been written since: what
fetch and CWT loads of the image read (R82). -/
structure CodeKeep where
  part : Nat
  image : Nat
  lines : NMap (List Byte)
  deriving DecidableEq, Repr

/-- The schedule: after so many ticks, this step (log 1). -/
structure Input where
  dt : Nat
  step : Instr
  deriving DecidableEq, Repr

/-- The whole module (INVENTORY.md, State). hostSent says since when a requester has a request at the host, and which of its
requests it is (R408). -/
structure State where
  time : Nat
  readyAt : Nat
  powerGood : Bool
  stage : Nat
  fwok : Bool
  failcode : BitVec 8
  flow : BitVec 8
  tout : BitVec 8
  tin : BitVec 8
  domSize : BitVec 5
  domModule : BitVec 5
  gateAt : Nat
  mem : Memory
  code : List CodeKeep
  poison : List Nat
  tags : NMap OwnerTag
  dir : NMap (BitVec 24)
  dies : NMap Die
  cores : NMap Core
  ctxs : NMap Context
  clusters : NMap Indigo
  links : NMap Link
  parts : NMap Partition
  ports : NMap Port
  accs : List Access
  colls : List CollInst
  joins : List ((Nat × Nat × Nat) × Nat)
  responses : List (Option (List Byte) × Bool)
  cmds : List ScalarCmd
  nextId : Nat
  freeCtr : Nat
  issue : Issue
  focus : PartRef
  agenda : List Input
  hostSent : NMap (Nat × Nat)
  deriving DecidableEq, Repr

/-- Why the machine stops. -/
inductive Fault where
  /-- Raised by step when bring-up has entered Failed and no event is due: every compute die stays in reset and
  nothing can issue (R325). Safe: the module goes on only by a new power-on. -/
  | bringUpFailed
  deriving DecidableEq, Repr

/-- Why a step has no meaning. -/
inductive Refusal where
  /-- Raised by exec alone, for a row whose meaning is not written yet. Safe: nothing is claimed of it. -/
  | notModelled (mnemonic : String)
  deriving DecidableEq, Repr

/-- The module right after reset, before power-good: every register at its reset value, memory with nothing
listed, every die in reset (R325). -/
def State.reset : State :=
  { time := 0, readyAt := 0, powerGood := false, stage := 0, fwok := false, failcode := 0, flow := 0, tout := 0,
    tin := 0, domSize := 0, domModule := 0, gateAt := 0, mem := [], code := [], poison := [], tags := [], dir := [],
    dies := [], cores := [], ctxs := [], clusters := [], links := [], parts := [], ports := [], accs := [],
    colls := [], joins := [], responses := [], cmds := [], nextId := 0, freeCtr := 0, issue := .zero,
    focus := .gang 0 0 0 false, agenda := [], hostSent := [] }

end Sys2Proof.Machine
end

