-- ==== Sys2Proof/Machine/Ops.lean ====
section
/-!
DEFINITION. The named operations over maps, memory and registers; fault records; taking a trap, returning from one,
ending a program. Every meaning is written over these.
-/
namespace Sys2Proof

/-- Whether a part can be named at all (R17, R38). -/
def PartRef.ok : PartRef → Bool
  | .gang d c x _ => d < 24 && c < 48 && x < 8
  | .ochre d i => d < 24 && i < 16

/-- Whether a part is a gang's. -/
def PartRef.isGang : PartRef → Bool
  | .gang _ _ _ _ => true
  | .ochre _ _ => false

/-- The context a gang part belongs to. -/
def PartRef.ctx? : PartRef → Option Machine.CtxRef
  | .gang d c x _ => some ⟨d, c, x⟩
  | .ochre _ _ => none

/-- The primary part of a part's context. -/
def PartRef.primary : PartRef → PartRef
  | .gang d c x _ => .gang d c x false
  | .ochre d i => .ochre d i

/-- Whether a part is the taken half of a split. -/
def PartRef.spare : PartRef → Bool
  | .gang _ _ _ sp => sp
  | .ochre _ _ => false

/-- The die a part stands on. -/
def PartRef.die : PartRef → Nat
  | .gang d _ _ _ => d
  | .ochre d _ => d

end Sys2Proof

namespace Sys2Proof.Machine

/-! ### Maps -/

/-- The value at a key. -/
def nget : NMap α → Nat → Option α
  | [], _ => none
  | (k, v) :: r, x => if k = x then some v else nget r x

/-- The value at a key, or the given value where the map lists none. -/
def ngetD (m : NMap α) (x : Nat) (d : α) : α := (nget m x).getD d

/-- The map with a value at a key; keys stay rising. -/
def nset : NMap α → Nat → α → NMap α
  | [], x, a => [(x, a)]
  | (k, v) :: r, x, a =>
    if x < k then (x, a) :: (k, v) :: r else if x = k then (x, a) :: r else (k, v) :: nset r x a

/-- The map without a key. -/
def nerase (m : NMap α) (x : Nat) : NMap α := m.filter (fun p => p.1 != x)

/-- The first n numbers from lo up. -/
def upto (lo n : Nat) : List Nat := (List.range n).map (lo + ·)

/-- Element i of a list, or the given one. -/
def at' (l : List α) (i : Nat) (d : α) : α := (l[i]?).getD d

/-- A list with element i replaced where it has one. -/
def setAt (l : List α) (i : Nat) (a : α) : List α := l.set i a

/-- The elements with their places. -/
def indexed (l : List α) : List (Nat × α) := (List.range l.length).zip l

/-- The least number of a list, or none. -/
def least : List Nat → Option Nat
  | [] => none
  | a :: r => match least r with
    | none => some a
    | some b => some (min a b)

/-- Places of a list in rising order. -/
def insertBy (f : α → Nat) (a : α) : List α → List α
  | [] => [a]
  | b :: r => if f a < f b then a :: b :: r else b :: insertBy f a r

/-- A list sorted by a key, least first. -/
def sortBy (f : α → Nat) (l : List α) : List α := l.foldl (fun r a => insertBy f a r) []

/-! ### Bytes (R1, R2) -/

/-- The number bytes hold, the first one lowest. -/
def ofBytes (l : List Byte) : Nat := l.foldr (fun b n => b.toNat + 256 * n) 0

/-- The n bytes of a number, lowest first. -/
def toBytes (n : Nat) (v : Nat) : List Byte := (List.range n).map (fun i => BitVec.ofNat 8 (v >>> (8 * i)))

/-- Sign-extension of the low n bits of a number to 64 bits (R111). -/
def sext64 (n : Nat) (v : Nat) : Word :=
  let m := v % 2 ^ n
  if n = 0 then 0 else if m < 2 ^ (n - 1) then BitVec.ofNat 64 m else BitVec.ofNat 64 (m + 2 ^ 64 - 2 ^ n)

/-- Bit i of a mask. -/
def bitOf (m : BitVec n) (i : Nat) : Bool := m.getLsbD i

/-- The numbers of the set bits of a mask, rising. -/
def bitsOf (m : BitVec n) : List Nat := (List.range n).filter (fun i => m.getLsbD i)

/-- The mask with the bits of a list set. -/
def maskOf (l : List Nat) : BitVec n := l.foldl (fun m i => m ||| (1#n <<< i)) 0

/-! ### Memory: canonical lists of cells (log 2) -/

/-- What a byte of memory that nothing lists reads as. DESIGN CHOICE 0, log 2; unsafe: the manual gives memory no
contents at power-on. -/
def Memory.blank : Byte := 0

/-- The form of memory: addresses strictly rise and no entry holds what an unlisted address reads as. -/
def Memory.ok : Memory → Bool
  | [] => true
  | (_, v) :: [] => v != Memory.blank
  | (a, v) :: (b, w) :: r => v != Memory.blank && decide (a < b) && Memory.ok ((b, w) :: r)

/-- The canonical form, as a proposition. -/
abbrev Memory.wf (m : Memory) : Prop := Memory.ok m = true

/-- One byte of memory. -/
def Memory.byte : Memory → Nat → Byte
  | [], _ => Memory.blank
  | (a, v) :: r, x => if a = x then v else if x < a then Memory.blank else Memory.byte r x

/-- Memory with one byte written. -/
def Memory.set : Memory → Nat → Byte → Memory
  | [], x, v => if v = Memory.blank then [] else [(x, v)]
  | (a, w) :: r, x, v =>
    if x < a then (if v = Memory.blank then (a, w) :: r else (x, v) :: (a, w) :: r)
    else if x = a then (if v = Memory.blank then r else (a, v) :: r)
    else (a, w) :: Memory.set r x v

/-- The entries of memory from an address up. -/
def Memory.upFrom (m : Memory) (a : Nat) : Memory := m.dropWhile (fun e => e.1 < a)

/-- n bytes from an address up. -/
def Memory.read (m : Memory) (a n : Nat) : List Byte :=
  let r := m.upFrom a
  (List.range n).map (fun i => r.byte (a + i))

/-- Memory with bytes written from an address up. -/
def Memory.write : Memory → Nat → List Byte → Memory
  | m, _, [] => m
  | m, a, b :: bs => Memory.write (m.set a b) (a + 1) bs

/-- A little-endian number of n bytes. -/
def Memory.num (m : Memory) (a n : Nat) : Nat := ofBytes (m.read a n)

/-! ### Places -/

/-- Number of a core in the module. -/
def coreKey (die core : Nat) : Nat := die * 48 + core

/-- Number of a context in the module. -/
def ctxKey (die core ctx : Nat) : Nat := (die * 48 + core) * 8 + ctx

/-- Where the context of a saved program stands: no place of the module, one for each slot of a partition (R296). -/
def savedPlace (part slot : Nat) : CtxRef := ⟨32 + part * 65536, 0, slot⟩

/-- Whether a place is a saved program's, and the partition of that program. -/
def CtxRef.isSaved (c : CtxRef) : Bool := 32 ≤ c.die
def CtxRef.savedPart (c : CtxRef) : Nat := (c.die - 32) / 65536

/-- Whether a place exists (R12, R16, R38). -/
def CtxRef.ok (c : CtxRef) : Bool := c.die < 24 && c.core < 48 && c.ctx < 8

def State.die (s : State) (d : Nat) : Die := ngetD s.dies d .zero
def State.setDie (s : State) (d : Nat) (x : Die) : State := { s with dies := nset s.dies d x }
def State.core (s : State) (d c : Nat) : Core := ngetD s.cores (coreKey d c) .zero
def State.setCore (s : State) (d c : Nat) (x : Core) : State := { s with cores := nset s.cores (coreKey d c) x }
def State.ctx (s : State) (r : CtxRef) : Context := ngetD s.ctxs (ctxKey r.die r.core r.ctx) .zero
def State.setCtx (s : State) (r : CtxRef) (x : Context) : State :=
  { s with ctxs := nset s.ctxs (ctxKey r.die r.core r.ctx) x }
def State.part (s : State) (p : Nat) : Partition := ngetD s.parts p .zero
def State.setPart (s : State) (p : Nat) (x : Partition) : State := { s with parts := nset s.parts p x }
def State.link (s : State) (l : Nat) : Link := ngetD s.links l .zero
def State.setLink (s : State) (l : Nat) (x : Link) : State := { s with links := nset s.links l x }
def State.ochre (s : State) (d i : Nat) : Ochre := ngetD (s.die d).ochre i .zero
def State.setOchre (s : State) (d i : Nat) (x : Ochre) : State :=
  s.setDie d { s.die d with ochre := nset (s.die d).ochre i x }
def State.bin (s : State) (d b : Nat) : Bin := ngetD (s.die d).bins b .zero
def State.setBin (s : State) (d b : Nat) (x : Bin) : State :=
  s.setDie d { s.die d with bins := nset (s.die d).bins b x }
def State.indigo (s : State) (d c : Nat) : Indigo := ngetD s.clusters (d * 12 + c) .zero
def State.setIndigo (s : State) (d c : Nat) (x : Indigo) : State :=
  { s with clusters := nset s.clusters (d * 12 + c) x }

/-- The thread of a part; the primary's where the spare half does not exist. -/
def State.thread (s : State) (p : PartRef) : Thread :=
  match p with
  | .gang d c x sp => if sp then (s.ctx ⟨d, c, x⟩).spare.getD .zero else (s.ctx ⟨d, c, x⟩).main
  | .ochre d i => (s.ochre d i).thread

/-- The state with a part's thread replaced. -/
def State.setThread (s : State) (p : PartRef) (t : Thread) : State :=
  match p with
  | .gang d c x sp =>
    if sp then s.setCtx ⟨d, c, x⟩ { s.ctx ⟨d, c, x⟩ with spare := some t }
    else s.setCtx ⟨d, c, x⟩ { s.ctx ⟨d, c, x⟩ with main := t }
  | .ochre d i => s.setOchre d i { s.ochre d i with thread := t }

/-- The thread of the bundle being issued. -/
def State.thr (s : State) : Thread := s.thread s.issue.part
def State.setThr (s : State) (t : Thread) : State := s.setThread s.issue.part t

/-- The context of the bundle being issued; of an Ochre thread, the requester's (R208). -/
def State.home (s : State) : CtxRef :=
  match s.issue.part with
  | .gang d c x _ => ⟨d, c, x⟩
  | .ochre d i => match (s.ochre d i).req with
    | some r => r.by_.ctx
    | none => ⟨0, 0, 0⟩

/-- The partition a die belongs to (R25). -/
def State.partOf (s : State) (die : Nat) : Option Nat :=
  (List.range 4).find? (fun p => (s.part p).formed && bitOf (s.part p).dies die)

/-- The partition number of a die, 0 for a die of none; of a saved program's place, its partition. -/
def State.partN (s : State) (die : Nat) : Nat :=
  if 32 ≤ die then (die - 32) / 65536 else (s.partOf die).getD 0

/-- Arithmetic-clock cycles since the module reached Ready (R147): 80 ticks each (log 1). -/
def State.cycle (s : State) : Nat := (s.time - s.readyAt) / 80

/-- A fresh number for an access or a command. -/
def State.fresh (s : State) : Nat × State := (s.nextId, { s with nextId := s.nextId + 1 })

/-! ### Scalar registers (R110) -/

/-- A register of a thread: s0 reads as zero. -/
def Thread.reg (t : Thread) (n : Nat) : Word := if n = 0 then 0 else ngetD t.regs n 0

/-- A thread with a register written: a write to s0 is discarded. -/
def Thread.setReg (t : Thread) (n : Nat) (v : Word) : Thread := if n = 0 then t else { t with regs := nset t.regs n v }

/-- A source register of the bundle's words: every word reads before any writes (R102). -/
def State.rd (s : State) (n : BitVec 5) : Word := if n = 0 then 0 else ngetD s.issue.src n.toNat 0

/-- The write of a scalar word's result. -/
def State.wr (s : State) (n : BitVec 5) (v : Word) : State := s.setThr (s.thr.setReg n.toNat v)

/-- The part's PC takes a target at the end of the bundle (R102). -/
def State.jump (s : State) (target : Word) : State :=
  { s.setThr { s.thr with pc := target } with issue := { s.issue with taken := true } }

/-- Whether the issuing part is an Ochre thread. -/
def State.onOchre (s : State) : Bool := match s.issue.part with | .ochre _ _ => true | _ => false

/-- The flags of ARSTAT gathered in their context (R70, R372). -/
def State.orFlags (s : State) (c : CtxRef) (f : BitVec 7) : State :=
  if f = 0 then s else s.setCtx c { s.ctx c with arstat := (s.ctx c).arstat ||| f }

/-! ### Engines -/

def Context.engine (c : Context) (e : Nat) : Engine := ngetD c.eng e .zero
def Context.setEngine (c : Context) (e : Nat) (x : Engine) : Context := { c with eng := nset c.eng e x }

/-- Engine scalar n (R19). -/
def Engine.scalar (x : Engine) (n : Nat) : Word := ngetD x.e n 0

/-- Shape code of a shape register: 16 rows of 128 bytes at start (R37). -/
def Engine.shape (x : Engine) (n : Nat) : BitVec 8 := ngetD x.sh n 0x33

/-- A tile register of a cluster. -/
def Engine.tile (x : Engine) (cl : Cluster) (n : Nat) : TileBits :=
  match cl with
  | .a => ngetD x.ta n 0
  | .b => ngetD x.tb n 0

def Engine.setTile (x : Engine) (cl : Cluster) (n : Nat) (v : TileBits) : Engine :=
  match cl with
  | .a => { x with ta := nset x.ta n v }
  | .b => { x with tb := nset x.tb n v }

def Engine.accum (x : Engine) (n : Nat) : AccBits := ngetD x.acc n 0
def Engine.record (x : Engine) (n : Nat) : BitVec 128 := ngetD x.ob n 0

/-- Lane count of a context's program (R33). -/
def Context.lanes (c : Context) : Nat := c.lrec.lanes

/-- A number rounded up to a granule (R32). -/
def roundUp (v g : Nat) : Nat := (v + g - 1) / g * g

/-- Allocations of a program: A and B registers, scratchpad and OSB bytes per engine (R32). -/
def Context.regsA (c : Context) : Nat := roundUp c.lrec.regA 8
def Context.regsB (c : Context) : Nat := roundUp c.lrec.regB 8
def Context.spadSize (c : Context) : Nat := roundUp c.lrec.spad 16384
def Context.osbSize (c : Context) : Nat := roundUp c.lrec.osbB 4096

/-- The helpers that attach to the spare half of a split (R49): those whose quad's lowest-numbered active lane is in
the taken half; with no active lane in the quad a helper stays with the primary. -/
def spareHelpers (lanes : Nat) (whole taken : BitVec 16) : BitVec 16 :=
  maskOf ((upto lanes (roundUp lanes 4 - lanes)).filter (fun e =>
    match (upto (e / 4 * 4) 4).find? (fun j => bitOf whole j) with
    | none => false
    | some j => bitOf taken j))

/-- Whether a helper executes the spare half's operations: the split fixed it, until the rejoin (R49). -/
def Context.helperOfSpare (c : Context) (e : Nat) : Bool := c.spare.isSome && bitOf c.helpSpare e

/-- The engines that execute a tile operation of a part under a mask: its active lanes and the helpers of its live
quads (R33, R34, R49). -/
def Context.acting (c : Context) (spare : Bool) (am : BitVec 16) : List Nat :=
  (List.range 16).filter fun e =>
    if e < c.lanes then bitOf am e
    else e < roundUp c.lanes 4 && (upto (e / 4 * 4) 4).any (fun j => bitOf am j)
      && (c.spare.isNone || c.helperOfSpare e == spare)

/-- Whether an engine is a helper. -/
def Context.helper (c : Context) (e : Nat) : Bool := c.lanes ≤ e

/-! ### Scratchpad and OSB storage: blocks of 2 KiB (R19, R254, R257) -/

/-- Bytes lo to lo + n - 1 of a block map of an engine, 128 blocks (scratchpad) or 32 (OSB) each. -/
def blocksByte (m : NMap TileBits) (per e a : Nat) : Byte :=
  (ngetD m (e * per + a / 2048) 0).extractLsb' (8 * (a % 2048)) 8

def blocksRead (m : NMap TileBits) (per e a n : Nat) : List Byte :=
  (List.range n).map (fun i => blocksByte m per e (a + i))

/-- The bits of a block with bytes written from byte o up. -/
def putBytes (b : TileBits) (o : Nat) (l : List Byte) : TileBits :=
  let mask : TileBits := BitVec.ofNat 16384 ((2 ^ (8 * l.length) - 1) <<< (8 * o))
  (b &&& ~~~mask) ||| (BitVec.ofNat 16384 (ofBytes l <<< (8 * o)) &&& mask)

def blocksSet (m : NMap TileBits) (per e a : Nat) (v : Byte) : NMap TileBits :=
  let k := e * per + a / 2048
  nset m k (putBytes (ngetD m k 0) (a % 2048) [v])

/-- Bytes written from an address up, block by block. -/
def blocksWrite (m : NMap TileBits) (per e : Nat) (a : Nat) (l : List Byte) : NMap TileBits :=
  let first := 2048 - a % 2048
  let head := l.take first
  let m := if head.isEmpty then m else
    let k := e * per + a / 2048
    nset m k (putBytes (ngetD m k 0) (a % 2048) head)
  let rest := l.drop first
  (List.range ((rest.length + 2047) / 2048)).foldl (fun m i =>
    let k := e * per + a / 2048 + 1 + i
    nset m k (putBytes (ngetD m k 0) 0 ((rest.drop (2048 * i)).take 2048))) m

/-- Scratchpad bytes of an engine of a core. -/
def State.spadRead (s : State) (d c e a n : Nat) : List Byte := blocksRead (s.core d c).spad 128 e a n

/-- Scratchpad bytes of an engine written, counters aside. -/
def State.spadPut (s : State) (d c e a : Nat) (l : List Byte) : State :=
  if l.isEmpty then s else s.setCore d c { s.core d c with spad := blocksWrite (s.core d c).spad 128 e a l }

/-- Cluster position of a core (R16): its column and row parity. -/
def corePos (core : Nat) : Nat := core / 8 % 2 * 2 + core % 2

/-- Ranks of the agents that write a scratchpad in one cycle (R256). -/
def streamRank : Nat := 0
def gatherRank : Nat := 1
def mordantRank : Nat := 2

/-- The rank of a part's tile store: by core position, then context number. -/
def tileRank (p : PartRef) : Nat := match p with
  | .gang _ c x _ => 3 + corePos c * 8 + x
  | .ochre _ _ => 3

/-- The same by an agent of a rank: a byte an agent of higher rank has written in this cycle keeps that value (R256).
DEDUCED, log 111. -/
def State.spadPutBy (s : State) (rank d c e a : Nat) (l : List Byte) : State :=
  let k := s.core d c
  let now := if k.writtenAt = s.cycle then k.written else []
  let covers (w : SpadWrite) (x n : Nat) : Bool := rank < w.rank && w.eng = e && w.first < x + n && x < w.first + w.len
  let s := if now.any (fun w => covers w a l.length) then
      (indexed l).foldl (fun s p => if now.any (fun w => covers w (a + p.1) 1) then s else s.spadPut d c e (a + p.1) [p.2]) s
    else s.spadPut d c e a l
  s.setCore d c { s.core d c with
    writtenAt := s.cycle, written := { rank := rank, eng := e, first := a, len := l.length } :: now }

/-- The 2 KiB blocks n bytes from an address touch. -/
def blocksOf (a n : Nat) : List Nat := if n = 0 then [] else upto (a / 2048) ((a + n - 1) / 2048 - a / 2048 + 1)

/-- A list without its repeats, first places kept. -/
def dedup [BEq α] (l : List α) : List α := l.foldl (fun r x => if r.contains x then r else r ++ [x]) []

/-- One operation's advance of the write-generation counters of an engine's blocks, once each (R230). -/
def State.bump (s : State) (d c e : Nat) (blocks : List Nat) : State :=
  let k := s.core d c
  s.setCore d c { k with
    gen := (dedup blocks).foldl (fun g b => nset g (e * 128 + b) (ngetD g (e * 128 + b) 0 + 1)) k.gen }

/-- A scratchpad write of one run by one operation. -/
def State.spadWrite (s : State) (d c e a : Nat) (l : List Byte) : State :=
  if l.isEmpty then s else (s.spadPut d c e a l).bump d c e (blocksOf a l.length)

def State.osbRead (s : State) (d c e a n : Nat) : List Byte := blocksRead (s.core d c).osb 32 e a n

def State.osbWrite (s : State) (d c e a : Nat) (l : List Byte) : State :=
  let k := s.core d c
  s.setCore d c { k with osb := blocksWrite k.osb 32 e a l }

/-! ### Physical addresses (R245) -/

/-- Fields of a physical address. DESIGN CHOICE, log 91. -/
def paSpace (pa : Nat) : Nat := pa >>> 50 % 4
def paDie (pa : Nat) : Nat := pa >>> 37 % 32
def paModule (pa : Nat) : Nat := pa >>> 42 % 32
def paMbz (pa : Nat) : Nat := if paSpace pa = 0 then pa >>> 42 % 256 else if paSpace pa = 1 then pa >>> 47 % 8 else 0

/-- A load-store domain address of this module names the same HBM as the 0b00 form (R245). -/
def State.fold (s : State) (pa : Nat) : Nat :=
  if paSpace pa = 1 && paModule pa = s.domModule.toNat then pa % 2 ^ 42 else pa

/-- Whether a physical address lies in this module's HBM. -/
def paLocal (pa : Nat) : Bool := paSpace pa = 0

/-- SRC of a record and of an owner tag (R360). -/
def srcBits (die core ctx eng unit : Nat) : BitVec 32 :=
  BitVec.ofNat 32 (die % 32 + core % 64 * 2 ^ 5 + ctx % 8 * 2 ^ 11 + eng % 16 * 2 ^ 14 + unit % 16 * 2 ^ 18)

/-! ### The L2 (R17, R246, R247) -/

/-- The home die and the slice of a line of this module's HBM: the address's die field, and PA[36:6] mod 24 (R246). -/
def lineDie (line : Nat) : Nat := paDie (64 * line)
def lineSlice (line : Nat) : Nat := line % 2 ^ 31 % 24

/-- Lines a 4 MiB slice holds (R17). -/
def sliceLines : Nat := 65536

/-! ### Routers (R305, R308) -/

def Die.router (d : Die) (n : Nat) : Router := ngetD d.routers n .zero

def State.setRouter (s : State) (die n : Nat) (r : Router) : State :=
  s.setDie die { s.die die with routers := nset (s.die die).routers n r }

/-- A router carries a flit now. -/
def State.carry (s : State) (die n : Nat) : State := s.setRouter die n { (s.die die).router n with idleFrom := s.time }

/-- The router at the group of four slices that is home to a physical address of this module. -/
def homeRouter (pa : Nat) : Nat × Nat := (paDie pa, 48 + lineSlice (pa / 64) / 4)

/-- Routers that carry a flit now. -/
def State.carryAll (s : State) (l : List (Nat × Nat)) : State := l.foldl (fun s r => s.carry r.1 r.2) s

/-- The routers at the slices that are home to a run of this module's HBM. -/
def homeRouters (a n : Nat) : List (Nat × Nat) :=
  if paLocal a && n != 0 then dedup ((upto (a / 64) ((a + n - 1) / 64 - a / 64 + 1)).map (fun l => homeRouter (64 * l))) else []

/-- A die's cores lose their L1 copies of a line. -/
def State.dropL1 (s : State) (line : Nat) (keep : Nat → Bool) : State :=
  { s with cores := s.cores.map (fun p => if keep p.1 then p else (p.1, { p.2 with l1 := p.2.l1.filter (· != line) })) }

/-- A line leaves a die's slice: a home line is written back to HBM and its owner tag ends. L1 copies and directory
bits stay. DESIGN CHOICE, log 93. -/
def State.evictLine (s : State) (d line : Nat) : State :=
  if lineDie line = d then { s with tags := nerase s.tags line } else s

/-- The state in which a die's slice no longer holds a line. -/
def State.leaveL2 (s : State) (d line : Nat) : State :=
  let x := s.die d
  let l := ngetD x.l2 (lineSlice line) []
  if l.contains line then s.setDie d { x with l2 := nset x.l2 (lineSlice line) (l.filter (· != line)) } else s

/-- The slice of a line's index on a die takes the line, which its router has brought: the least recently used one leaves
a full slice. DESIGN CHOICE, log 93. -/
def State.l2Hold (s : State) (d line : Nat) : State :=
  let x := s.die d
  let old := (ngetD x.l2 (lineSlice line) []).filter (· != line)
  let s := (s.setDie d { x with l2 := nset x.l2 (lineSlice line) ((line :: old).take sliceLines) }).carry d
    (48 + lineSlice line / 4)
  ((line :: old).drop sliceLines).foldl (fun s l => s.evictLine d l) s

/-- A read of a line by a die: its home slice holds it, and where the page is cacheable the slice of its index on
another requesting die a shared copy, which the home's directory records (R247). -/
def State.l2Read (s : State) (d pa : Nat) (cached : Bool) : State :=
  if !paLocal pa then s
  else
    let line := pa / 64
    let s := s.l2Hold (lineDie line) line
    if !cached || lineDie line = d then s
    else
      let s := s.l2Hold d line
      { s with dir := nset s.dir line (ngetD s.dir line 0 ||| (1#24 <<< d)) }

/-! ### Poison (R391, R404) -/

/-- Whether the line of an address reads as poisoned: it is poisoned, or its home die does not run (R391, R404); a line
beyond this module is where poison has been delivered to it (R392). DEDUCED, log 55. -/
def State.poisoned (s : State) (pa : Nat) : Bool :=
  let d := s.die (paDie pa)
  if paLocal pa then d.status != .running || s.poison.contains (pa / 64) != d.poisonAll
  else s.poison.contains (pa / 64)

/-! ### Page-table walks (R243, R244) -/

/-- Lowest virtual bit a level indexes, and how many bits. -/
def levelBits : Nat → Nat × Nat
  | 0 => (48, 9)
  | 1 => (39, 9)
  | 2 => (30, 9)
  | 3 => (21, 9)
  | _ => (16, 5)

/-- Whether a table address names the HBM of a die of the partition on this module (R244). -/
def State.tableOk (s : State) (part pa : Nat) : Bool :=
  paSpace pa = 0 && paMbz pa = 0 && paDie pa < 24 && bitOf (s.part part).dies (paDie pa)

/-- Whether a leaf at a level is well formed (R244). -/
def leafOk (level : Nat) (e : Word) : Bool :=
  2 ≤ level && (e.extractLsb' 52 4) == 0 && (e.extractLsb' 11 5) == 0 && !bitOf e 9 && !bitOf e 7 && !bitOf e 5
    && (level != 3 || (e.extractLsb' 16 5) == 0) && (level != 2 || (e.extractLsb' 16 14) == 0)
    && !(bitOf e 3 && !bitOf e 2)

/-- Whether a non-leaf at a level is well formed (R244). -/
def nextOk (level : Nat) (e : Word) : Bool :=
  level < 4 && (e.extractLsb' 52 12) == 0 && (e.extractLsb' 2 6) == 0 && (level = 3 || (e.extractLsb' 8 4) == 0)

/-- A walk from a level's table down; the list holds the levels still to read. -/
def State.walkFrom (s : State) (part va table : Nat) : List Nat → Except (BitVec 8) TlbEntry
  | [] => .error 0x42
  | level :: rest =>
    if !s.tableOk part table then .error 0x42
    else
      let (lo, n) := levelBits level
      let at_ := table + 8 * (va >>> lo % 2 ^ n)
      if s.poisoned at_ then .error 0x42
      else
        let e : Word := BitVec.ofNat 64 (s.mem.num at_ 8)
        if !bitOf e 0 then .error 0x41
        else if bitOf e 1 then
          (if leafOk level e then .ok { vbase := va >>> lo <<< lo, size := 2 ^ lo, leaf := e } else .error 0x42)
        else if nextOk level e then s.walkFrom part va ((e.extractLsb' 8 44).toNat * 256) rest
        else .error 0x42

/-- The table entries that a walk from a level's table down reads. -/
def State.walkTrail (s : State) (part va table : Nat) : List Nat → List Nat
  | [] => []
  | level :: rest =>
    if !s.tableOk part table then []
    else
      let (lo, n) := levelBits level
      let at_ := table + 8 * (va >>> lo % 2 ^ n)
      let e : Word := BitVec.ofNat 64 (s.mem.num at_ 8)
      at_ :: (if bitOf e 0 && !bitOf e 1 then s.walkTrail part va ((e.extractLsb' 8 44).toNat * 256) rest else [])

/-- The routers that a walk's reads pass (R305). -/
def State.walkRouters (s : State) (part va : Nat) : List (Nat × Nat) :=
  let q := s.part part
  if q.ptrootV then dedup ((s.walkTrail part va (q.ptroot.toNat * 4096) [0, 1, 2, 3, 4]).map homeRouter) else []

/-- The walk of a region of a partition. -/
def State.walk (s : State) (part va : Nat) : Except (BitVec 8) TlbEntry :=
  let q := s.part part
  if !q.ptrootV then .error 0x41 else s.walkFrom part va (q.ptroot.toNat * 4096) [0, 1, 2, 3, 4]

/-! ### Image table entries (R277) -/

/-- Little-endian field of a record of bytes. -/
def field (l : List Byte) (at_ n : Nat) : Nat := ofBytes ((l.drop at_).take n)

/-- An image table entry's fields as doublewords 0 to 7 (R277). -/
def imageWords (l : List Byte) : List Word := (List.range 8).map (fun i => BitVec.ofNat 64 (field l (8 * i) 8))

/-- Of an entry: kernel table, control words and their number, slot table, handler. -/
def imgKtab (e : List Word) : Nat := (at' e 0 0).toNat
def imgCwta (e : List Word) : Nat := (at' e 1 0).toNat
def imgSlots (e : List Word) : Nat := (at' e 2 0).toNat
def imgHandler (e : List Word) : Word := at' e 3 0
def imgCwtn (e : List Word) : Nat := (at' e 5 0).toNat % 65536
def imgNkern (e : List Word) : Nat := (at' e 5 0).toNat >>> 16 % 65536

/-- Whether an entry is loaded (R277): valid, reserved fields zero, fingerprint, counts in range. -/
def State.imageLoaded (s : State) (part n : Nat) (e : List Word) : Bool :=
  let q := s.part part
  n < q.imgCnt.toNat && !q.imgDead.contains n && (at' e 5 0).toNat >>> 32 = 1 && at' e 6 0 = 0 && at' e 7 0 = 0
    && at' e 4 0 = q.cfgfp && imgCwtn e ≤ 512 && 1 ≤ imgNkern e

/-! ### Code as it was loaded (R82) -/

/-- The bytes of a line of memory, and those that an image of a partition was loaded with. -/
def State.lineBytes (s : State) (line : Nat) : List Byte := s.mem.read (64 * line) 64

def State.codeLine (s : State) (part image line : Nat) : List Byte :=
  match s.code.find? (fun k => k.part = part && k.image = image) with
  | some k => ngetD k.lines line (s.lineBytes line)
  | none => s.lineBytes line

/-- Bytes of an image's code or table at a physical address, by byte. -/
def State.codeBytes (s : State) (part image pa n : Nat) : List Byte :=
  (List.range n).map (fun i => at' (s.codeLine part image ((pa + i) / 64)) ((pa + i) % 64) 0)

/-- The entry of an image as memory holds it now, where its page is mapped. -/
def State.entryNow (s : State) (part n : Nat) : Option (List Word) :=
  let va := (s.part part).imgBase.toNat * 64 + 64 * n
  match s.walk part va with
  | .ok t =>
    let pa := s.fold ((t.leaf.toNat >>> 16 % 2 ^ 36) * 65536 + va % t.size)
    some (imageWords (s.mem.read pa 64))
  | .error _ => none

/-- The images of a partition whose entries have become valid since code was last kept (R277). -/
def State.newImages (s : State) (part : Nat) : List CodeKeep :=
  ((List.range (s.part part).imgCnt.toNat).filter (fun n =>
    s.code.all (fun k => k.part != part || k.image != n) && (s.entryNow part n).any (s.imageLoaded part n))).map
    fun n => { part := part, image := n, lines := [] }

/-- A line about to be written is kept for the images that are loaded (R82, R277). DEDUCED, log 94. -/
def State.keepLine (s : State) (line : Nat) : State :=
  { s with code := (s.code ++ (List.range 4).flatMap s.newImages).map (fun k => if (nget k.lines line).isSome then k
      else { k with lines := nset k.lines line (s.lineBytes line) }) }

/-- An image is loaded where a launch record is accepted for it. -/
def State.loadImage (s : State) (part image : Nat) : State :=
  if s.code.any (fun k => k.part = part && k.image = image) then s
  else { s with code := s.code ++ [{ part := part, image := image, lines := [] }] }

/-- An image retired, or all of a partition's. -/
def State.dropImages (s : State) (part : Nat) (gone : Nat → Bool) : State :=
  { s with code := s.code.filter (fun k => !(k.part = part && gone k.image)) }

/-! ### The home slice (R246, R247, R391, R393) -/

/-- The list of lines that differ from their die's default, with one line poisoned or not. -/
def State.poisonList (s : State) (line : Nat) (b : Bool) : List Nat :=
  let rest := s.poison.filter (· != line)
  if b == (paLocal (64 * line) && (s.die (paDie (64 * line))).poisonAll) then rest else line :: rest

/-- The place a program's records name: where it was saved from, of a saved one (R360). -/
def State.homeOf (s : State) (c : CtxRef) : CtxRef :=
  if c.isSaved then
    (((s.part c.savedPart).savedProgs.find? (fun v => v.slot = c.ctx)).map (·.home)).getD c
  else c

/-- Whether a scope around a context covers the agent that an owner tag names (R264): a unit acting for the context, one
of its core, of its die, of its partition on this module; the I/O dies, unit 9, speak for agents outside. -/
def Scope.coversTag (sc : Scope) (c : CtxRef) (part : Nat) (t : OwnerTag) : Bool :=
  let n := t.src.toNat
  match sc with
  | .gang => t.ctx == some c
  | .core => t.ctx.isSome && n % 32 = c.die && n / 2 ^ 5 % 64 = c.core
  | .die => n / 2 ^ 18 % 16 != 9 && n % 32 = c.die
  | .pkg => n / 2 ^ 18 % 16 != 9 && t.part = part
  | .sys => true

/-- Loads that took a value of bytes early, before an acquire they stand behind, lose it where a test of the acquire's
scope holds: the agent that writes the bytes now is one the acquire orders (R120, R264, R269). -/
def State.squash (s : State) (pa n : Nat) (test : Scope → Access → Bool) : State :=
  { s with accs := s.accs.map fun a =>
      if a.pieces.all (fun p => p.took.isNone) then a
      else if s.accs.any (fun b => b.id < a.id && b.who = a.who && b.acq.any (fun sc => test sc a)) then
        { a with pieces := a.pieces.map fun p =>
            if p.pa.any (fun q => q < pa + n && pa < q + p.len) then { p with took := none } else p }
      else a }

/-- The dies whose copies of a line a write invalidates, but that of the storing core's die, lose it (R247). -/
def State.dropCopies (s : State) (line : Nat) (mine : BitVec 24) : State :=
  (bitsOf (ngetD s.dir line 0 &&& ~~~mine)).foldl (fun s d => s.leaveL2 d line) s

/-- A store or the write side of an atomic to bytes of one line performed at the home: memory changes, the home slice
holds the line, every other die's copy and L1 copy is invalidated but those of the storing core (by its number), which
its store path has updated, the owner tag is rewritten, and a whole-line write clears poison. -/
def State.homeWriteBy (s : State) (keep : Option Nat) (pa : Nat) (bytes : List Byte) (tag : OwnerTag) : State :=
  let line := pa / 64
  let s := s.squash pa bytes.length (fun sc a => sc.coversTag (s.homeOf a.by_.ctx) (s.partN a.who.die) tag)
  let s := { s.keepLine line with mem := s.mem.write pa bytes }
  let poison := if pa % 64 = 0 && bytes.length = 64 then s.poisonList line false else s.poison
  if paLocal pa then
    let mine : BitVec 24 := keep.elim 0 (fun k => ngetD s.dir line 0 &&& (1#24 <<< (k / 48)))
    let s := ((s.dropCopies line mine).dropL1 line (fun k => keep == some k)).l2Hold (lineDie line) line
    { s with
      poison := poison
      dir := if mine = 0 then nerase s.dir line else nset s.dir line mine
      tags := nset s.tags line tag }
  else { s with poison := poison }

/-- The same by an agent without an L1. -/
def State.homeWrite (s : State) (pa : Nat) (bytes : List Byte) (tag : OwnerTag) : State := s.homeWriteBy none pa bytes tag

/-- A write of a unit or of management of the module that no context is concerned with (R360, R393). -/
def unitTag (part die unit : Nat) : OwnerTag := { part := part, src := srcBits die 0 0 0 unit, ctx := none, seq := 0, prog := 0 }

/-- The state with a line poisoned: no L1 holds it any more (R391). -/
def State.poisonLine (s : State) (line : Nat) : State :=
  { s.dropL1 line (fun _ => false) with poison := s.poisonList line true }

/-! ### Fault records (R358 to R360) -/

/-- The 64 bytes of a record. -/
def FaultRecord.bytes (r : FaultRecord) : List Byte :=
  toBytes 1 r.code.toNat ++ toBytes 1 r.kind.toNat ++ toBytes 2 r.flags.toNat ++ toBytes 4 r.src.toNat
    ++ toBytes 4 r.seq.toNat ++ toBytes 4 r.prog.toNat ++ toBytes 8 r.pc.toNat ++ toBytes 8 r.val.toNat
    ++ toBytes 8 r.val2.toNat ++ toBytes 8 r.time.toNat ++ toBytes 8 r.issued.toNat ++ toBytes 8 0

/-- A record of zeros with the time it arises. -/
def State.blankRecord (s : State) (code : BitVec 8) (kind : Nat) (src : BitVec 32) : FaultRecord :=
  { code := code, kind := BitVec.ofNat 8 kind, flags := 0, src := src, seq := 0, prog := 0, pc := 0, val := 0,
    val2 := 0, time := BitVec.ofNat 64 s.cycle, issued := 0 }

/-- Whether the partition can write a record now: the queue is enabled and has room, and a queue in host memory has
its link up (R359, R408). -/
def Partition.canRecord (p : Partition) : Bool :=
  p.fqEn && (p.fqWp - p.fqRp).toNat < 2 ^ p.fqLog2.toNat && (paSpace (p.fqBase.toNat * 64) != 2 || p.pcieUp)

/-! ### Links and bridge windows (R14, R27, R28, R260, R261) -/

/-- The two ends of a link; I/O die n stands as 24 + n. The second end is the higher (R217). -/
def linkEnds (l : Nat) : Nat × Nat :=
  if l < 11 then (l, l + 1)
  else if l < 22 then (l + 1, l + 2)
  else if l < 34 then (l - 22, l - 10)
  else if l = 34 then (0, 24) else if l = 35 then (12, 25) else if l = 36 then (11, 26) else (23, 27)

/-- Whether a boundary link between two partitions is open: bridge traffic travels on those alone (R27, R28). -/
def State.bridgeOpen (s : State) (part peer : Nat) : Bool :=
  (List.range 34).any fun k =>
    let (a, b) := linkEnds k
    let l := s.link k
    let on (p d : Nat) : Bool := bitOf (s.part p).dies d
    l.boundary && !l.closed && ((on part a && on peer b) || (on part b && on peer a))

/-- Whether a bridge window holds n bytes from a physical address of this module (R260). -/
def windowHas (w : BitVec 128) (pa n : Nat) : Bool :=
  bitOf w 63 && (w.extractLsb' 21 31).toNat * 2 ^ 21 ≤ pa
    && pa + n ≤ ((w.extractLsb' 21 31).toNat + (w.extractLsb' 64 32).toNat) * 2 ^ 21

/-- A bridge window of a partition that holds n bytes from a physical address (R260, R261). -/
def State.windowOf (s : State) (part pa n : Nat) : Option Nat :=
  (List.range 8).find? fun k => windowHas (ngetD (s.part part).bwin k 0) pa n

/-- Whether a bridge page of a partition can be reached: its whole physical page lies in one of its windows, which stands
only while a boundary link joins it to a peer that is home to the page (R28, R261). DEDUCED, log 101. -/
def State.bridged (s : State) (part page size : Nat) : Bool :=
  (s.windowOf part page size).isSome
    && (bitOf (s.part part).dies (paDie page) || s.bridgeOpen part (s.partN (paDie page)))

/-- Whether a partition's own writes reach a physical address: memory of this module only where it is the partition's or
lies in a bridge window of it (R28). -/
def State.ownReach (s : State) (part pa n : Nat) : Bool :=
  !paLocal pa || bitOf (s.part part).dies (paDie pa) || s.bridged part pa n

/-- One record written to the queue: performed at system scope before WP advances (R359). One that would fall into another
partition's memory is written nowhere (R28). DEDUCED, log 90. -/
def State.writeRecord (s : State) (p : Nat) (r : FaultRecord) : State :=
  let q := s.part p
  let pa := s.fold (q.fqBase.toNat * 64 + 64 * (q.fqWp.toNat % 2 ^ q.fqLog2.toNat))
  let s := if s.ownReach p pa 64 then s.homeWrite pa r.bytes (unitTag p 0 11) else s
  s.setPart p { s.part p with fqWp := q.fqWp + 1, msixOwed := true }

/-- Whether a cause that arose before a record's is on its way to a program that will end by it, whose own record comes
first (R359). DEDUCED, log 90. -/
def State.endsBefore (s : State) (p : Nat) (r : FaultRecord) : Bool :=
  s.ctxs.any fun e =>
    e.1 < 24 * 384 && e.2.prog.part = p && e.2.st != .empty && e.2.st != .starting && e.2.st != .draining
      && (match e.2.inbox with
        | (_, q) :: _ =>
          (q.kind = 4 || e.2.handlerAddr = 0) && !q.recorded && (q.time - s.readyAt) / 80 < r.time.toNat
        | [] => false)

/-- A record held, in the order the causes arose (R359). -/
def holdRecord (r : FaultRecord) (l : List FaultRecord) : List FaultRecord := insertBy (·.time.toNat) r l

/-- A record is written, held while the queue cannot take it or an earlier cause's has still to come, or left with its
source when the holding buffer is full (R359). DEDUCED, log 90. -/
def State.emit (s : State) (p : Nat) (r : FaultRecord) : State :=
  let q := s.part p
  if q.holding.isEmpty && q.behind.isEmpty && q.canRecord && !s.endsBefore p r then s.writeRecord p r
  else if q.holding.length < 64 then s.setPart p { q with holding := holdRecord r q.holding }
  else s.setPart p { q with behind := q.behind ++ [r] }

/-- Whether a record of a context waits behind a full holding buffer (R359). -/
def State.recordBehind (s : State) (c : CtxRef) : Bool :=
  (s.part (s.partN c.die)).behind.any (fun r =>
    r.src.toNat % 2 ^ 14 == c.die + c.core * 2 ^ 5 + c.ctx * 2 ^ 11)

/-- Causes whose record is always written (R361): not those of a walk, which wrote theirs (R384). -/
def alwaysRecord (code : BitVec 8) : Bool :=
  [0x43, 0x44, 0x49, 0x4B, 0x4C, 0x86, 0x88].contains code.toNat

/-- SEQ and PROG of a context's program. -/
def Context.recSeq (c : Context) : BitVec 32 := BitVec.ofNat 32 c.prog.seq
def Context.recProg (c : Context) : BitVec 32 := BitVec.ofNat 32 c.prog.prog

/-- ISSUED (R147): the bundles a part issued since its placement, those of its handlers among them. DEDUCED, log 12. -/
def Thread.bundles (t : Thread) : Word := t.issued + t.hissued

/-- The count that an operation of a part issues at: in a handler one that counts the handlers' bundles too (R350). -/
def Thread.now (t : Thread) : Word := if t.handler.isSome then t.bundles else t.issued

/-- The record of a cause of a context. -/
def State.causeRecord (s : State) (c : CtxRef) (spare ended : Bool) (q : Cause) : FaultRecord :=
  let x := s.ctx c
  let h := s.homeOf c
  let t := if spare then x.spare.getD .zero else x.main
  { s.blankRecord q.code q.kind.toNat (srcBits h.die h.core h.ctx q.eng q.unit) with
    flags := (if ended then 2 else 0) + (if spare then 4 else 0) + (if t.handler.isSome then 8 else 0)
    seq := x.recSeq, prog := x.recProg, pc := q.pc, val := q.val,
    time := BitVec.ofNat 64 ((q.time - s.readyAt) / 80), issued := t.bundles }

/-! ### Causes, traps and ends -/

/-- A cause of the bundle being issued, kind 0 or 1. -/
def State.cause (s : State) (code : BitVec 8) (kind : BitVec 3) (val : Word) (eng : Nat) : Cause :=
  { code := code, kind := kind, val := val, eng := eng, pc := s.issue.addr, at_ := s.thr.now,
    inHandler := s.thr.handler.isSome, time := s.time, gen := s.thr.hgen, order := s.nextId }

/-- A cause of a part at its next bundle, that no unit raised (R346). -/
def Thread.cause (t : Thread) (s : State) (code : BitVec 8) (kind : BitVec 3) (val : Word) : Cause :=
  { code := code, kind := kind, val := val, eng := 0, pc := t.pc, at_ := t.now, inHandler := t.handler.isSome,
    time := s.time, gen := t.hgen, order := s.nextId }

/-- A cause of kind 4, which no bundle concerns (R346, R360). -/
def State.systemCause (s : State) (code : BitVec 8) (val : Word) : Cause :=
  { code := code, kind := 4, val := val, eng := 0, pc := 0, at_ := 0, inHandler := false, time := s.time }

/-- A unit of a core has made progress (R402). -/
def Core.moved (k : Core) (unit time : Nat) : Core := { k with progressAt := nset k.progressAt unit time }

/-- The spare sequencer of a core becomes free where a context holds it. -/
def State.freeSpare (s : State) (c : CtxRef) : State :=
  let k := s.core c.die c.core
  if k.spareOwner = some c.ctx then s.setCore c.die c.core { k with spareOwner := none } else s

/-- Every command and access in the module with its issuer changed. -/
def State.mapIssuers (s : State) (f : Issuer → Issuer) : State :=
  let req (g : GatherReq) : GatherReq := { g with by_ := f g.by_ }
  let ring (r : RingCmd) : RingCmd := { r with by_ := f r.by_ }
  let copy (m : CopyCmd) : CopyCmd := { m with by_ := f m.by_ }
  { s with
    cores := s.cores.map (fun e => (e.1, { e.2 with
      matq := e.2.matq.map (fun m => { m with by_ := f m.by_ })
      morq := e.2.morq.map (fun m => { m with by_ := f m.by_ })
      strq := e.2.strq.map (fun i => match i with
        | .copy m => .copy (copy m)
        | .ring r => .ring (ring r))
      copies := e.2.copies.map copy
      rings := e.2.rings.map ring }))
    dies := s.dies.map (fun e => (e.1, { e.2 with
      gq := e.2.gq.map req
      ochre := e.2.ochre.map (fun o => (o.1, { o.2 with req := o.2.req.map req })) }))
    accs := s.accs.map (fun a => { a with by_ := f a.by_ })
    colls := s.colls.map (fun i => { i with members := i.members.map (fun m => { m with by_ := f m.by_ }) }) }

/-- A transfer whose parts stand for others. -/
def IndigoTransfer.owned (own : PartRef → PartRef) (t : IndigoTransfer) : IndigoTransfer :=
  { t with who := own t.who, also := t.also.map (fun a => (own a.1, a.2)) }

/-- Outstanding accesses of a part that is gone lose the registers they return to and stand for the context's primary
(R51, R272, R355). -/
def State.dropReturns (s : State) (p : PartRef) : State :=
  let own (q : PartRef) : PartRef := if q = p then p.primary else q
  { s with
    accs := s.accs.map (fun a => if a.who = p then
      { a with
        who := p.primary
        op := match a.op with
          | .loadReg _ n g => .loadReg 0 n g
          | .amo o n _ c => .amo o n 0 c
          | .launch q _ => .launch q 0
          | o => o }
      else a)
    parts := s.parts.map (fun e => (e.1, { e.2 with flush := e.2.flush.map (fun f => (own f.1, f.2)) }))
    clusters := s.clusters.map (fun e => (e.1, { e.2 with
      waiting := e.2.waiting.map (fun t => t.owned own)
      flying := e.2.flying.map (fun t => t.owned own) })) }

/-- A requester removed from every list of a die. -/
def State.unlist (s : State) (die : Nat) (who : Requester) : State :=
  let d := s.die die
  s.setDie die { d with
    merge := d.merge.map (fun e => (e.1, { e.2 with list := e.2.list.filter (fun w => w.who != who) }))
    misses := d.misses.filter (fun m => m.2.2.who != who) }

/-- The fetches and reads before issue of a part leave its die's lists: the part is gone (R386). -/
def State.unlistPart (s : State) (p : PartRef) : State := (s.unlist p.die (.fetch p)).unlist p.die (.loops p)

/-- A slot's other bank becomes the issuing one, effective in the next cycle (R40). -/
def Core.switchSlot (k : Core) (slot bank now : Nat) : Core :=
  { k with issuing := nset k.issuing slot bank, switchedAt := nset k.switchedAt slot (now + 1) }

/-- A slot whose issuing context cannot issue gives way to the other bank when that one can (R40). -/
def State.settleSlot (s : State) (die core slot : Nat) : State :=
  let k := s.core die core
  let b := ngetD k.issuing slot 0
  let cur := s.ctx ⟨die, core, 2 * slot + b⟩
  let other := s.ctx ⟨die, core, 2 * slot + (1 - b)⟩
  let stuck := cur.st == .blocked || cur.st == .draining || cur.st == .empty
  if stuck && (other.st == .ready || other.st == .resident) then
    let s := s.setCore die core { k.switchSlot slot (1 - b) s.cycle with heldFrom := nerase k.heldFrom slot }
    s.setCtx ⟨die, core, 2 * slot + (1 - b)⟩ { other with st := .ready, stamp := s.cycle + 1 }
  else s

/-- Fetch halts: every lane exits as at END, pending results, latches and causes are discarded, and the context enters
DRAINING; its slot may switch (R40, R44, R55, R355). -/
def State.drain (s : State) (c : CtxRef) : State :=
  let stop (t : Thread) : Thread :=
    { t with am := 0, stack := [], loops := [], pend := [], la := [], fences := [], causes := [], handler := none,
             waits := [], last := none, frozen := false, cwtLoad := [], due := false, late := none, dep := [] }
  let s := (s.unlistPart (.gang c.die c.core c.ctx true)).unlistPart (.gang c.die c.core c.ctx false)
  let s := s.dropReturns (.gang c.die c.core c.ctx true)
  let s := s.dropReturns (.gang c.die c.core c.ctx false)
  let x := s.ctx c
  (s.setCtx c { x with st := .draining, lm := 0, main := stop x.main, spare := none, base := [], inbox := [],
                       want := none, save := .none, ended := true }).freeSpare c |>.settleSlot c.die c.core (c.ctx / 2)

/-- The same for a program that a fault ends (R355). -/
def State.drainFaulted (s : State) (c : CtxRef) : State :=
  (s.setCtx c { s.ctx c with faulted := true }).drain c

/-- The program of a context ends with a fault: its record carries the cause and FLAGS.ENDED, unless it is written
already (R355, R359). -/
def State.endProgram (s : State) (c : CtxRef) (spare : Bool) (q : Cause) : State :=
  (if q.recorded then s else s.emit (s.partN c.die) (s.causeRecord c spare true q)).drainFaulted c

/-- TRAPCAUSE as a trap writes it (R348). DIST of an operation a handler issued, arriving after its RTE, counts every
bundle the part issued since, that of an operation outside one the part's own. DEDUCED, log 12. -/
def trapCause (q : Cause) (t : Thread) (half : Bool) : Word :=
  let n := (if q.inHandler then t.bundles else t.issued) - q.at_
  let dist := if q.kind.toNat < 2 then 0 else min n.toNat 0xFFFF
  BitVec.ofNat 64 (q.code.toNat + q.kind.toNat * 2 ^ 16 + (if half then 2 ^ 19 else 0) + q.eng % 16 * 2 ^ 24
    + dist * 2 ^ 32)

/-- s24 to s31 exchange with the shadow bank (R350, R352). -/
def Thread.exchange (t : Thread) : Thread :=
  let outside := t.regs.filter (fun p => p.1 < 24)
  let inside := t.regs.filter (fun p => 24 ≤ p.1)
  { t with regs := outside ++ t.shadow.filter (fun p => 24 ≤ p.1), shadow := inside }

/-- PC bits a trap register or a jump keeps (R348). -/
def pcBits (v : Word) : Word := v &&& 0x01FFFFFFFFFFFFFC

/-- The thread as its handler starts (R350): trap registers, entry state, s24 to s31 exchanged with the shadow bank,
PC at the handler; its exposed results and lookahead windows stay latched, and its own count stands. -/
def Thread.enter (t : Thread) (q : Cause) (half : Bool) (resume handler : Word) : Thread :=
  { t.exchange with
    trapcause := trapCause q t half
    trappc := pcBits resume
    trapval := q.val
    handler := some { am := t.am, loopDepth := t.loops.length, stackDepth := t.stack.length, pend := t.pend,
                      la := t.la, code := q.code }
    pend := [], la := [], pc := handler, hgen := t.hgen + 1 }

/-- The other half of a split gang freezes while a handler runs: the spare from the next cycle on, since both halves may
raise a cause in one cycle (R356). -/
def State.freezeOther (s : State) (c : CtxRef) (spare b : Bool) : State :=
  let x := s.ctx c
  match x.spare with
  | none => s
  | some t =>
    if spare then s.setCtx c { x with main := { x.main with frozen := b } }
    else s.setCtx c { x with spare := some { t with frozen := b, frozenFrom := s.cycle + 1 } }

/-- The record of a cause that always writes one, where none is written yet (R359, R361). -/
def State.recordAlways (s : State) (c : CtxRef) (spare ended : Bool) (q : Cause) : State :=
  if alwaysRecord q.code && !q.recorded then s.emit (s.partN c.die) (s.causeRecord c spare ended q) else s

/-- Taking a trap of kind 0 to 3 at a part (R350, R353, R355, R381): the one operation every trap goes through. -/
def State.enterTrap (s : State) (p : PartRef) (q : Cause) (resume : Word) : State :=
  match p with
  | .ochre d i => s.setOchre d i { s.ochre d i with done := true, fail := some q.code }
  | .gang d c x spare =>
    let r : CtxRef := ⟨d, c, x⟩
    let k := s.ctx r
    let t := s.thread p
    match t.handler with
    | some h =>
      (s.recordAlways r spare false q).endProgram r spare
        { q with code := 0x13, kind := 0, eng := 0, recorded := false,
                 val := BitVec.ofNat 64 (h.code.toNat * 256 + q.code.toNat) }
    | none =>
      if k.handlerAddr = 0 then s.endProgram r spare q
      else
        ((s.recordAlways r spare false q).setThread p (t.enter q spare resume k.handlerAddr)).freezeOther r spare true

/-- A cause held pending at a part, its record written now where it always writes one (R359); the seventeenth ends the
program (R354). -/
def State.holdCause (s : State) (p : PartRef) (q : Cause) : State :=
  match p with
  | .gang d c x sp =>
    let s := s.recordAlways ⟨d, c, x⟩ sp false q
    let t := s.thread p
    let q := { q with recorded := q.recorded || alwaysRecord q.code }
    if 16 ≤ t.causes.length then
      s.endProgram ⟨d, c, x⟩ sp
        { q with code := 0x14, kind := 0, val := q.code.setWidth 64, eng := 0, recorded := false }
    else s.setThread (.gang d c x sp) { t with causes := t.causes ++ [q] }
  | .ochre _ _ => s

/-- The cycle a cause arose in, counted from a start. -/
def Cause.cycle (q : Cause) (from_ : Nat) : Nat := (q.time - from_) / 80

/-- Whether a cause on its way goes before another: those of one cycle stand the primary's first, then in ascending
code, then in the issue order of their bundles (R354, R356). -/
def causeBefore (from_ : Nat) (a b : Bool × Cause) : Bool :=
  let x := a.2.cycle from_
  let y := b.2.cycle from_
  x < y || (x = y && ((!a.1 && b.1) || (a.1 == b.1 && (a.2.code.toNat < b.2.code.toNat
    || (a.2.code = b.2.code && a.2.order < b.2.order)))))

/-- A cause takes its place among those on their way. -/
def insertCause (from_ : Nat) (p : Bool × Cause) : List (Bool × Cause) → List (Bool × Cause)
  | [] => [p]
  | h :: r => if causeBefore from_ p h then p :: h :: r else h :: insertCause from_ p r

/-- A saved program ends with a cause when it is placed (R394, R403). -/
def State.doom (s : State) (part slot : Nat) (code : BitVec 8) (val : Word) : State :=
  let k := s.part part
  s.setPart part { k with savedProgs := k.savedProgs.map (fun v =>
    if v.slot = slot && v.doom.isNone then { v with doom := some (code, val) } else v) }

/-- A saved program's seventeenth pending cause: it ends with 0x14 when it is placed (R354). DEDUCED, log 95. -/
def State.overflowSaved (s : State) (c : CtxRef) (code : BitVec 8) : State :=
  s.doom c.savedPart c.ctx 0x14 (code.setWidth 64)

/-- A unit or an access raises a cause of kind 2, 3 or 4 for a context (R346): it travels to the part's sequencer; for a
saved program it is held with the save slot, at most 16 for a part (R354); for a draining one it only writes a record
(R355). The record of a cause that always writes one is written as the cause arises (R359). -/
def State.raise (s : State) (c : CtxRef) (spare : Bool) (q : Cause) : State :=
  let x := s.ctx c
  match x.st with
  | .empty => s
  | .draining => s.emit (s.partN c.die) (s.causeRecord c spare false q)
  | _ =>
    let sp := spare && x.spare.isSome
    let s := s.recordAlways c sp (x.handlerAddr = 0 || q.kind = 4) q
    let t := if sp then x.spare.getD .zero else x.main
    if c.isSaved && 16 ≤ t.causes.length + (x.inbox.filter (fun e => e.1 = sp)).length then s.overflowSaved c q.code
    else s.setCtx c { x with inbox := insertCause s.readyAt (sp, { q with recorded := alwaysRecord q.code }) x.inbox }

/-- A bundle of a part raises a cause of kind 0 or 1: the part traps; the spare half's cause goes the way of the others, so
that a cause that the primary raises in the same cycle is entered first (R346, R356). DEDUCED, log 33. -/
def State.trapAt (s : State) (p : PartRef) (q : Cause) (resume : Word) : State :=
  match p with
  | .gang d c x true =>
    let t := s.thread p
    if t.handler.isNone && (s.ctx ⟨d, c, x⟩).spare.isSome then
      (s.setThread p { t with pc := resume, due := false }).raise ⟨d, c, x⟩ true q
    else s.enterTrap p q resume
  | _ => s.enterTrap p q resume

/-- A kind 0 trap of the bundle being issued: nothing of it takes effect, TRAPPC holds it (R346). -/
def State.trap0 (s : State) (code : BitVec 8) (val : Word) (eng : Nat) : State :=
  s.trapAt s.issue.part (s.cause code 0 val eng) s.issue.addr

/-- The kind of a failed fetch (R361), of consumed poison too (R392). DEDUCED, log 24. -/
def fetchKind (code : BitVec 8) : BitVec 3 :=
  if code = 0x41 || code = 0x42 || code = 0x47 || code = 0x49 then 1 else 3

/-- The cause of a unit's command (R346, kind 3 unless said otherwise). -/
def Issuer.cause (b : Issuer) (s : State) (code : BitVec 8) (kind : BitVec 3) (val : Word) (eng : Nat) : Cause :=
  { code := code, kind := kind, val := val, eng := eng, pc := b.pc, at_ := b.at_, inHandler := b.inHandler,
    time := s.time, gen := b.gen, order := b.order }

/-- A unit raises a cause for the issuer of its command. -/
def State.raiseBy (s : State) (b : Issuer) (code : BitVec 8) (kind : BitVec 3) (val : Word) (eng : Nat)
    (unit : Nat := 0) : State :=
  s.raise b.ctx b.spare { b.cause s code kind val eng with unit := unit }

/-- The issuer of what a part issues at an address: its count is that of the bundle. -/
def State.issuerAt (s : State) (p : PartRef) (addr : Word) : Issuer :=
  match p with
  | .gang d c x sp =>
    let t := s.thread p
    { ctx := ⟨d, c, x⟩, spare := sp, pc := addr, at_ := t.now + (if s.issue.late then 0 else 1),
      inHandler := t.handler.isSome, gen := t.hgen, order := s.issue.first, since := s.time }
  | .ochre d i => match (s.ochre d i).req with
    | some r => r.by_
    | none => { ctx := ⟨0, 0, 0⟩, spare := false, pc := addr, at_ := 0, inHandler := false }

/-- The issuer of what the current bundle issues. -/
def State.issuer (s : State) : Issuer := s.issuerAt s.issue.part s.issue.addr

/-- Whether a step of a unit may stand: while the holding buffer of a partition is full, a unit that would report a
fault keeps its command and the step is taken again (R359). -/
def State.unitStep (s t : State) : State :=
  if (List.range 4).any (fun p => (s.part p).behind.length < (t.part p).behind.length) then s else t

/-! ### Exposed results (R92, R94) -/

/-- One destination written. -/
def Context.land1 (x : Context) : Dest → Context
  | .tile e cl r v m =>
    let g := x.engine e
    x.setEngine e (g.setTile cl r ((g.tile cl r &&& ~~~m) ||| (v &&& m)))
  | .e e r v => x.setEngine e { x.engine e with e := nset (x.engine e).e r v }
  | .k e r v =>
    let b : BitVec 4 := 1#4 <<< r
    x.setEngine e { x.engine e with k := if v then (x.engine e).k ||| b else (x.engine e).k &&& ~~~b }
  | .sh e r v => x.setEngine e { x.engine e with sh := nset (x.engine e).sh r v }

/-- All destinations of a result written. -/
def Context.land (x : Context) (ds : List Dest) : Context := ds.foldl Context.land1 x

/-- The engine of a destination. -/
def Dest.eng : Dest → Nat
  | .tile n _ _ _ _ => n
  | .e n _ _ => n
  | .k n _ _ => n
  | .sh n _ _ => n

/-- Bytes of a destination register that a landing result covers are lost to the accesses issued before it (R170). -/
def State.shadowLoads (s : State) (c : CtxRef) (before : Nat) (d : Dest) : State :=
  match d with
  | .tile e cl r _ m =>
    { s with accs := s.accs.map fun a =>
        let hit := a.id < before && a.by_.ctx = c && (match a.op with
          | .loadTile cl' r' => cl' = cl && r' = r
          | .vatom _ _ (some (cl', r')) => cl' = cl && r' = r
          | _ => false)
        if hit then { a with dead := nset a.dead e (ngetD a.dead e 0 ||| m) } else a }
  | _ => s

/-- A destination without some bits of a tile register of an engine. -/
def Dest.without (e : Nat) (cl : Cluster) (reg : Nat) (m : TileBits) : Dest → Dest
  | .tile e' cl' r v w =>
    if e' = e && cl' = cl && r = reg then .tile e' cl' r v (w &&& ~~~m) else .tile e' cl' r v w
  | d => d

/-- Results issued before a load or a result lose the bytes it has written (R170); but each latch of a hard save is written
in its own turn, whatever other latch has landed (R415). DEDUCED, log 13. -/
def olderLose (before : Nat) (latched : Bool) (e : Nat) (cl : Cluster) (reg : Nat) (m : TileBits) (l : List Pending) :
    List Pending :=
  l.map fun p => if p.order < before && !(latched && p.latched) then { p with dest := p.dest.map (Dest.without e cl reg m) } else p

/-- The same in a thread, its latches included. -/
def Thread.olderLose (t : Thread) (before : Nat) (latched : Bool) (e : Nat) (cl : Cluster) (reg : Nat) (m : TileBits) : Thread :=
  { t with pend := Sys2Proof.Machine.olderLose before latched e cl reg m t.pend,
           handler := t.handler.map fun h => { h with pend := Sys2Proof.Machine.olderLose before latched e cl reg m h.pend } }

/-- Results of earlier bundles lose the bytes that a landing one writes (R170). -/
def Context.olderLose (x : Context) (before : Nat) (latched : Bool) : Dest → Context
  | .tile e cl r _ m => { x with
      main := x.main.olderLose before latched e cl r m
      spare := x.spare.map (fun t => t.olderLose before latched e cl r m) }
  | _ => x

/-- A thread's results as a hard save moves them into its latches (R295). -/
def Thread.latch (t : Thread) : Thread :=
  let mark (l : List Pending) : List Pending := l.map (fun p => { p with latched := true })
  { t with pend := mark t.pend, handler := t.handler.map (fun h => { h with pend := mark h.pend }) }

/-- One result landed. -/
def State.landOne (s : State) (c : CtxRef) (p : Pending) : State :=
  let s := s.setCtx c (p.dest.foldl (fun x d => x.olderLose p.bundle p.latched d) ((s.ctx c).land p.dest))
  p.dest.foldl (fun s d => s.shadowLoads c p.order d) s

/-- Results landed in issue order (R91, R95, R351). DEDUCED, log 13. -/
def State.landList (s : State) (c : CtxRef) (l : List Pending) : State := l.foldl (fun s p => s.landOne c p) s

/-- Every result of a list landed at once, by offset and then in issue order (R91, R95, R351). -/
def State.landAll (s : State) (c : CtxRef) (l : List Pending) : State :=
  (List.range 16).foldl (fun s k => s.landList c (l.filter (fun p => p.r = k))) s

/-- The results of a part that become visible to its next bundle land, and the others come one bundle nearer (R94). -/
def State.tick (s : State) (p : PartRef) : State :=
  match p with
  | .ochre _ _ => s
  | .gang d c x _ =>
    let t := s.thread p
    let l := t.pend.map (fun q => { q with r := q.r - 1 })
    (s.setThread p { t with pend := l.filter (fun q => q.r != 0) }).landList ⟨d, c, x⟩ (l.filter (fun q => q.r = 0))

/-- An exposed result of latency n of the bundle being issued. -/
def State.expose (s : State) (n : Nat) (ds : List Dest) : State :=
  let (o, s) := s.fresh
  s.setThr { s.thr with pend := s.thr.pend ++ [{ r := n, order := o, bundle := s.issue.first, dest := ds }] }

/-- RTE (R352): an illegal return inside a handler is a double trap, outside one it is cause 0x10. Pending causes are
taken by the caller. -/
def State.doRte (s : State) (p : PartRef) : State :=
  match p with
  | .ochre _ _ => s
  | .gang d c x spare =>
    let r : CtxRef := ⟨d, c, x⟩
    let t := s.thread p
    match t.handler with
    | none => s.trap0 0x10 0 0
    | some h =>
      if h.loopDepth < t.loops.length || h.stackDepth < t.stack.length then s.trap0 0x10 0 0
      else
        let s := s.landAll r t.pend
        let s := s.setThread p { (s.thread p).exchange with
          am := h.am &&& (s.ctx r).lm, pc := t.trappc, handler := none, pend := h.pend, la := h.la }
        s.freezeOther r spare false

end Sys2Proof.Machine
end

