-- ==== Sys2Proof/Machine/Access.lean ====
section
/-!
DEFINITION. Translation, the TLBs and merge tables, and global accesses on their way to their homes (R242 to R253,
R263 to R271).
-/
namespace Sys2Proof.Machine

/-- The parts of n bytes from an address in each 64-byte sector: address, length and offset. -/
def sectors (va n : Nat) : List (Nat × Nat × Nat) :=
  if n = 0 then [] else
  (upto (va / 64) ((va + n - 1) / 64 - va / 64 + 1)).map fun k =>
    let a := max va (64 * k)
    (a, min (va + n) (64 * k + 64) - a, a - va)

/-! ### Leaves and physical checks -/

/-- What a translation gives: the physical address, whether the line is cacheable here, whether the page is TSO. -/
structure Mapped where
  pa : Nat
  cached : Bool
  tso : Bool
  deriving DecidableEq, Repr

/-- The answer of a lookup: a hit, a refusal that needs no walk (0x43, 0x44), or a miss. -/
inductive Lookup where
  | hit (m : Mapped)
  | refused (code : BitVec 8)
  | miss
  deriving DecidableEq, Repr

/-- The right an access kind lacks on a leaf, as its cause (R244). -/
def lacks (k : AccessKind) (leaf : Word) : Option (BitVec 8) :=
  match k with
  | .read => if bitOf leaf 2 then none else some 0x45
  | .write => if bitOf leaf 3 then none else some 0x46
  | .atomic => if !bitOf leaf 2 then some 0x45 else if bitOf leaf 3 then none else some 0x46
  | .fetch => if bitOf leaf 4 then none else some 0x47

/-! ### Addresses a partition may reach (R245, R248, R261) -/

/-- The address form and the partition of a physical address (R245, R248, R261, R321), as a cause. page is the whole
page's first byte and its size. DEDUCED, log 92. -/
def State.refusal (s : State) (part : Nat) (leaf : Word) (page size pa : Nat) : Option (BitVec 8) :=
  let sp := paSpace pa
  if sp = 3 || paMbz pa != 0 then some 0x43
  else if sp < 2 && 24 ≤ paDie pa then some 0x43
  else if sp = 1 && s.domSize.toNat < paModule pa then some 0x43
  else if paSpace (s.fold pa) != 0 then (if bitOf leaf 10 then some 0x44 else none)
  else if bitOf leaf 10 then (if s.bridged part (s.fold page) size then none else some 0x44)
  else if bitOf (s.part part).dies (paDie pa) then none else some 0x44

/-- What a held translation gives an access of a partition. -/
def State.apply (s : State) (part va : Nat) (t : TlbEntry) : Lookup :=
  let page := (t.leaf.toNat >>> 16 % 2 ^ 36) * 65536
  let pa0 := page + va % t.size
  match s.refusal part t.leaf page t.size pa0 with
  | some c => .refused c
  | none =>
    let pa := s.fold pa0
    .hit { pa := pa,
           cached := (t.leaf.extractLsb' 8 2) == 0 && paLocal pa && bitOf (s.part part).dies (paDie pa),
           tso := (t.leaf.extractLsb' 6 2) == 1 }

/-! ### TLBs (R251): recency lists -/

/-- The translation covering an address. -/
def tlbFind (l : List TlbEntry) (va : Nat) : Option TlbEntry :=
  l.find? (fun t => t.vbase ≤ va && va < t.vbase + t.size)

/-- A translation put first, at most n kept: least-recently-used replacement. -/
def tlbFill (n : Nat) (l : List TlbEntry) (t : TlbEntry) : List TlbEntry :=
  (t :: l.filter (fun u => !(u.vbase = t.vbase && u.size = t.size))).take n

/-- The set of an L2 TLB entry: 16,384 entries in 8 ways make 2,048 sets, indexed by the page number. DESIGN CHOICE,
log 96. -/
def TlbEntry.set (t : TlbEntry) : Nat := t.vbase / t.size % 2048

/-- A translation put first in an L2 TLB; the least recently used one leaves a full set (R251). -/
def l2Fill (l : List TlbEntry) (t : TlbEntry) : List TlbEntry :=
  let rest := l.filter (fun u => !(u.vbase = t.vbase && u.size = t.size))
  let out := (rest.filter (fun u => u.set = t.set)).drop 7
  t :: rest.filter (fun u => !out.contains u)

/-- A lookup in a die's L2 TLB. A hit whose leaf lacks the right is a miss of the access (R383). -/
def State.lookupL2 (s : State) (die part va : Nat) (k : AccessKind) : Lookup × State :=
  if 2 ^ 57 ≤ va then (.refused 0x43, s)
  else
    let d := s.die die
    match tlbFind d.l2tlb va with
    | none => (.miss, s)
    | some t =>
      if (lacks k t.leaf).isSome then (.miss, s)
      else (s.apply part va t, s.setDie die { d with l2tlb := l2Fill d.l2tlb t })

/-- A lookup in a die's L2 TLB for an Ochre thread: where a miss would join an entry that stands faulted, a walk that its own
kind cannot pass gives its cause at once, with no wait for the answer (R381). DEDUCED, log 68. -/
def State.lookupThread (s : State) (die part va : Nat) (k : AccessKind) : Lookup × State :=
  match s.lookupL2 die part va k with
  | (.miss, t) =>
    if (t.die die).merge.any (fun e => e.2.faulted && e.2.region = va / 65536 && e.2.part = part) then
      (match t.walk part (va / 65536 * 65536) with
        | .error c => (.refused c, t)
        | .ok e => match lacks k e.leaf with
          | some c => (.refused c, t)
          | none => (.miss, t))
    else (.miss, t)
  | r => r

/-- A lookup through a core's TLB, then the die's. -/
def State.lookupCore (s : State) (die core part va : Nat) (k : AccessKind) : Lookup × State :=
  if 2 ^ 57 ≤ va then (.refused 0x43, s)
  else
    let c := s.core die core
    match (tlbFind c.tlb va).filter (fun t => (lacks k t.leaf).isNone) with
    | some t => (s.apply part va t, s.setCore die core { c with tlb := tlbFill 256 c.tlb t })
    | none =>
      let d := s.die die
      match (tlbFind d.l2tlb va).filter (fun t => (lacks k t.leaf).isNone) with
      | some t =>
        let s := s.setDie die { d with l2tlb := l2Fill d.l2tlb t }
        (s.apply part va t, s.setCore die core { c with tlb := tlbFill 256 c.tlb t })
      | none => (.miss, s)

/-! ### Banks and waiting contexts (R39, R40) -/

/-- A context that can issue again: READY if its bank is issuing, else RESIDENT (R39, R291). -/
def State.makeReady (s : State) (c : CtxRef) (stamp : Nat) : State :=
  let slot := c.ctx / 2
  let mine := ngetD (s.core c.die c.core).issuing slot 0 == c.ctx % 2
  let x := s.ctx c
  let s := s.setCtx c { x with st := if mine then .ready else .resident, stamp := stamp }
  let k := s.core c.die c.core
  let s := s.setCore c.die c.core { k with heldFrom := nset k.heldFrom slot s.cycle }
  s.settleSlot c.die c.core slot

/-- A context enters BLOCKED and its slot may switch. -/
def State.makeBlocked (s : State) (c : CtxRef) : State :=
  let x := s.ctx c
  match x.st with
  | .ready | .issuing | .resident =>
    (s.setCtx c { x with st := .blocked, blockedAt := s.time }).settleSlot c.die c.core (c.ctx / 2)
  | _ => s

/-! ### The merge table (R252, R383, R384) -/

/-- The context a requester would freeze: scalar and tile accesses, fetches, reads before issue and LDCWT sources
(R357). -/
def State.freezes (s : State) : Requester → Option CtxRef
  | .access id => match s.accs.find? (fun a => a.id == id) with
    | some a => a.who.ctx?.filter (fun c => !c.isSaved)
    | none => none
  | .fetch p | .loops p => p.ctx?
  | _ => none

/-- Whether a context waits on a faulted region (R357). -/
def State.pageWait (s : State) (c : CtxRef) : Bool :=
  (s.die c.die).merge.any fun e => e.2.faulted && e.2.list.any fun w => !w.helper && s.freezes w.who == some c

/-- A waiter joined to a list: one requester stands once; a real access replaces a helper's. -/
def joinList (l : List MergeWaiter) (w : MergeWaiter) : List MergeWaiter :=
  if l.any (fun v => v.who = w.who && v.kind = w.kind) then
    l.map (fun v => if v.who = w.who && v.kind = w.kind && v.helper && !w.helper then w else v)
  else l ++ [w]

/-- The lowest free entry of a die's merge table. -/
def State.freeEntry (s : State) (die : Nat) : Option Nat :=
  (List.range 256).find? (fun k => (nget (s.die die).merge k).isNone)

/-- A miss takes a free entry and starts a walk. -/
def State.takeEntry (s : State) (die part k : Nat) (w : MergeWaiter) : State :=
  let (n, s) := s.fresh
  let d := s.die die
  let u := ngetD d.uses k 0 + 1
  s.setDie die { d with
    uses := nset d.uses k u
    merge := nset d.merge k { region := w.va / 65536, part := part, list := [w], faulted := false, code := 0, use := u,
                              started := n } }

/-- Whether a walk runs: it is among the 16 that a die's walks in progress began first (R252). -/
def State.walks (s : State) (die : Nat) (e : MergeEntry) : Bool :=
  !e.faulted && ((s.die die).merge.filter (fun f => !f.2.faulted && f.2.started < e.started)).length < 16

/-- A miss in the L2 TLB of a die: it joins the region's entry, takes the lowest free entry, or waits for one behind
the misses that wait already. -/
def State.miss (s : State) (die part : Nat) (w : MergeWaiter) : State :=
  let d := s.die die
  let region := w.va / 65536
  match d.merge.find? (fun e => e.2.region == region && e.2.part == part) with
  | some (k, e) =>
    let s := s.setDie die { d with merge := nset d.merge k { e with list := joinList e.list w } }
    if e.faulted && !w.helper then
      (match s.freezes w.who with
        | some c => s.makeBlocked c
        | none => s)
    else s
  | none =>
    match if d.misses.isEmpty then s.freeEntry die else none with
    | some k => s.takeEntry die part k w
    | none =>
      if d.misses.any (fun m => m.2.2.who = w.who && m.2.1 = region) then s
      else s.setDie die { d with misses := d.misses ++ [(part, region, w)] }

/-! ### Accesses (R103, R104, R248) -/

/-- The access kind of an operation (R244, R258). -/
def AccessOp.kind : AccessOp → AccessKind
  | .loadReg _ _ _ | .loadTile _ _ | .lkfetch _ | .ldcwt _ _ | .launch _ _ | .nodeput _ _ => .read
  | .store | .scadd _ => .write
  | .amo _ _ _ _ | .vatom _ _ _ => .atomic

/-- Whether an operation only reads. -/
def AccessOp.isLoad (o : AccessOp) : Bool := o.kind == .read

/-- Whether an operation returns a value to a register. -/
def AccessOp.returns : AccessOp → Bool
  | .amo _ _ rd _ => rd != 0
  | .vatom _ _ ret => ret.isSome
  | .store | .scadd _ => false
  | _ => true

/-- Whether host memory takes an atomic: FetchAdd, Swap and CAS only (R258). -/
def AccessOp.hostOk : AccessOp → Bool
  | .amo o _ _ _ => o = 0 || o = 9 || o = 10
  | .scadd _ | .vatom _ _ _ => false
  | _ => true

/-- The access of a number. -/
def State.acc (s : State) (id : Nat) : Option Access := s.accs.find? (fun a => a.id == id)

/-- An access replaced. -/
def State.setAcc (s : State) (a : Access) : State :=
  { s with accs := s.accs.map (fun b => if b.id = a.id then a else b) }

/-- Whether a piece still waits. -/
def Piece.isOpen (p : Piece) : Bool := match p.st with | .open_ | .early => true | _ => false

/-- Whether a release has performed a piece at its home before what it orders (R120, R264). -/
def Piece.isEarly (p : Piece) : Bool := match p.st with | .early => true | _ => false

/-- Whether a store's piece has entered its core's L1 store path (R247, R266). -/
def Piece.entered (p : Piece) : Bool := p.entry != 0

/-- Whether an access still has work at its home. -/
def Access.isOpen (a : Access) : Bool := a.pieces.any Piece.isOpen

/-- The wait counter of a part: a context's own, an Ochre core's own (R104, R209). -/
def State.wcOf (s : State) (p : PartRef) (n : Nat) : Nat :=
  match p with
  | .gang d c x _ => ngetD (s.ctx ⟨d, c, x⟩).wc n 0
  | .ochre d i => ngetD (s.ochre d i).wc n 0

def State.setWc (s : State) (p : PartRef) (n v : Nat) : State :=
  match p with
  | .gang d c x _ => s.setCtx ⟨d, c, x⟩ { s.ctx ⟨d, c, x⟩ with wc := nset (s.ctx ⟨d, c, x⟩).wc n v }
  | .ochre d i => s.setOchre d i { s.ochre d i with wc := nset (s.ochre d i).wc n v }

def State.wcUp (s : State) (p : PartRef) (n : Nat) : State := s.setWc p n (s.wcOf p n + 1)
def State.wcDown (s : State) (p : PartRef) (n : Nat) : State := s.setWc p n (s.wcOf p n - 1)

/-- The part through whose core an access reaches memory: of a saved program's, the one it was issued by (R296). -/
def State.seat (s : State) (p : PartRef) : PartRef :=
  match p with
  | .gang d c x sp => let h := s.homeOf ⟨d, c, x⟩
                      .gang h.die h.core h.ctx sp
  | .ochre _ _ => p

/-- One piece looked up: its physical address once its page is held, a failure where the address is refused, else a
requester on the merge table (R250 to R252). -/
def State.touch (s : State) (a : Access) (p : Piece) : Piece × State :=
  if !p.isOpen || p.pa.isSome then (p, s)
  else
    let part := s.partN a.who.die
    let k := a.op.kind
    let at_ := s.seat a.who
    let (r, s) := match at_ with
      | .gang d c _ _ => s.lookupCore d c part p.va k
      | .ochre d _ => s.lookupThread d part p.va k
    match r with
    | .hit m =>
      if paSpace m.pa = 2 && !a.op.hostOk then ({ p with st := .failed 0x48 }, s)
      else ({ p with pa := some m.pa, weak := m.cached && !m.tso, tso := m.tso, cached := m.cached }, s)
    | .refused c => ({ p with st := .failed c }, s)
    | .miss => (p, s.miss at_.die part { who := .access a.id, kind := k, va := p.va, helper := p.helper })

/-- Every piece of an access looked up. -/
def State.touchAll (s : State) (a : Access) : State :=
  let (ps, s) := a.pieces.foldl (fun (acc : List Piece × State) p =>
    let (p, s) := acc.2.touch a p
    (acc.1 ++ [p], s)) ([], s)
  s.setAcc { a with pieces := ps }

/-- An access begun by the bundle being issued: it takes the next number, counts, and looks its pieces up. -/
def State.begin (s : State) (path : Path) (op : AccessOp) (pieces : List Piece) (acq rel : Option Scope) (wc : Nat) :
    Nat × State :=
  let (id, s) := s.fresh
  let a : Access := { id := id, who := s.issue.part, by_ := s.issuer, path := path, op := op, pieces := pieces,
                      acq := acq, rel := rel, wc := wc, dropped := false, dead := [], since := s.time,
                      word := s.issue.word }
  let s := ({ s with accs := s.accs ++ [a] }).wcUp s.issue.part wc
  (id, s.touchAll a)

/-- A lookahead window opened by the bundle being issued: LA 15 waits for nothing (R103). -/
def State.look (s : State) (la : Nat) (target : LaTarget) : State :=
  if la = 15 then s else s.setThr { s.thr with la := s.thr.la ++ [{ left := la, target := target }] }

/-- A plain piece. -/
def Piece.mk' (va len : Nat) (data : List Byte) : Piece :=
  { va := va, len := len, eng := 0, elem := 0, off := 0, data := data, old := [], pa := none, weak := false,
    tso := false, helper := false, st := .open_ }

/-! ### Order of accesses (R120, R253, R263, R266 to R269, R272) -/

/-- Whether two pieces share a byte: by physical address where both are known. -/
def Piece.overlaps (p q : Piece) : Bool :=
  match p.pa, q.pa with
  | some a, some b => a < b + q.len && b < a + p.len
  | _, _ => p.va < q.va + q.len && q.va < p.va + p.len

/-- Whether two pieces may share a byte: while a page is not known, by their places in it (R265). -/
def Piece.mayOverlap (p q : Piece) : Bool :=
  if p.pa.isSome && q.pa.isSome then p.overlaps q
  else p.va % 65536 < q.va % 65536 + q.len && q.va % 65536 < p.va % 65536 + p.len

/-- Whether a scope reaches beyond the core. -/
def Scope.wide : Scope → Bool
  | .gang | .core => false
  | _ => true

/-- Whether an operation is a store. -/
def AccessOp.isStore : AccessOp → Bool
  | .store => true
  | _ => false

/-- Whether a piece of an access is performed at a scope: a weak store of a core at .gang and .core once it has
entered the L1 store path (R266). A failed piece of a lane is never performed: its access ends and takes the releases
behind it along (R395). -/
def Piece.performedAt (p : Piece) (s : Scope) : Bool :=
  (match p.st with | .performed | .acked => true | .failed _ => p.helper | .open_ | .early => false) || (!s.wide && p.entered)

/-- Whether every piece of an access is performed at a scope. -/
def Access.performedAt (a : Access) (s : Scope) : Bool := a.pieces.all (fun p => p.performedAt s)

/-- The context an access is charged to. -/
def Access.ctxOf (a : Access) : CtxRef := a.by_.ctx

/-- Whether a part's own access is on the scalar or the tile path. -/
def Path.ofPart : Path → Bool
  | .scalar | .tile => true
  | _ => false

/-- Whether the L1 store path of one core holds both accesses. -/
def sameCore (a b : Access) : Bool :=
  match a.who, b.who with
  | .gang d c _ _, .gang d' c' _ _ => d = d' && c = c'
  | _, _ => false

/-- Where a store or atomic leaves a die for: the die of this module, the host or the other module it is performed at;
none at home (R273, R309, R321). -/
def Piece.route (d : Nat) (p : Piece) : Option (Nat × Nat) :=
  p.pa.bind fun pa =>
    if paSpace pa = 0 then (if paDie pa = d then none else some (0, paDie pa))
    else some (paSpace pa, if paSpace pa = 1 then paModule pa else 0)

/-- Where an access stands among those of its context: an Ochre thread's with its request (R263). -/
def Access.place (a : Access) : Nat := if a.who.isGang then a.id else a.by_.order

/-- Whether access a stands behind an earlier acquire b of its part (R120). -/
def behindAcquire (a b : Access) : Bool :=
  b.acq.isSome && a.who = b.who && (a.path.ofPart || a.path = b.path) && b.isOpen

/-- Whether a release a must wait for an earlier access b of its part: at its home for the home of b, whose agents read
through the L2; on entering the L1 store path for its scope (R120, R266). -/
def behindRelease (home : Bool) (a b : Access) : Bool :=
  match a.rel with
  | some sc => a.who = b.who && (b.path.ofPart || a.path = b.path)
      && !b.performedAt (if home && !sc.wide then .die else sc)
  | none => false

/-- Whether a store that has not entered, or an atomic, stands behind an entered store of its core, and of two entered
stores the later one behind the earlier (R265, R266). -/
def behindEntered (a b : Access) (p q : Piece) : Bool :=
  !a.op.isLoad && a.id != b.id && q.isOpen && q.entered && sameCore a b && p.overlaps q && (!p.entered || q.entry < p.entry)

/-- Whether piece p of access a must wait for the open piece q of an earlier access b: one location on one path (R263),
TSO pages of one context (R253), or one route (R273). A gang's load looks into its own earlier stores instead; an Ochre
thread's waits for them. DEDUCED, log 16. -/
def waitsFor (a b : Access) (p q : Piece) : Bool :=
  let reads := a.op.isLoad && b.op.isStore
  let forward := reads && a.who.isGang
  let same := a.who = b.who || (a.path = .gather && b.path = .gather && a.ctxOf = b.ctxOf && b.place < a.place)
  let near := a.who = b.who || (a.ctxOf = b.ctxOf && a.path.ofPart && b.path.ofPart)
  let host (r : Option (Nat × Nat)) : Bool := r.any (fun x => x.1 = 2)
  (same && a.path = b.path && p.mayOverlap q && !(forward && (q.pa.isSome || p.overlaps q)))
  || (p.tso && a.ctxOf = b.ctxOf && b.place < a.place && (q.tso || q.pa.isNone)
      && (if forward then q.pa.isNone && p.mayOverlap q else !reads || p.mayOverlap q))
  || (!a.op.isLoad && !b.op.isLoad && near && b.rel.isNone && (p.route a.who.die).isSome
      && ((p.tso == q.tso && p.route a.who.die == q.route b.who.die) || (host (p.route a.who.die) && q.pa.isNone)))

/-- The sector of memory a piece lies in, by its virtual address. -/
def Piece.sector (p : Piece) : Nat := p.va / 64

/-- The place of the first piece of an access in a sector, by engine and then element. -/
def Access.firstIn (a : Access) (sec : Nat) : Nat :=
  (least ((a.pieces.filter (fun q => q.isOpen && q.sector = sec)).map (fun q => q.eng * 65536 + q.elem))).getD 0

/-- Whether a piece of one TSO instruction stands behind another sector of it: sectors go in the order of their first
engine and element, each whole (R250, R253, R259). DEDUCED, log 16. -/
def Access.behindOwn (a : Access) (p : Piece) : Bool :=
  p.tso && a.pieces.any fun q => q.isOpen && (q.tso || q.pa.isNone) && q.sector != p.sector
    && a.firstIn q.sector < a.firstIn p.sector

/-! ### What a context still has outstanding (R123 to R125, R140, R269) -/

/-- Whether the commands of a list of issuers and numbers hold one of the context issued before a number. -/
def anyBefore (c : CtxRef) (before : Nat) (l : List (CtxRef × Nat)) : Bool :=
  l.any (fun p => p.1 = c && p.2 < before)

/-- The engine commands of a context on a path not completed yet, with their numbers (R124). -/
def State.unitIds (s : State) (c : CtxRef) (path : Path) : List (CtxRef × Nat) :=
  let k := s.core c.die c.core
  match path with
  | .matrix => k.matq.map (fun m => (m.by_.ctx, m.id))
  | .quant => k.morq.map (fun m => (m.by_.ctx, m.id))
  | .copy => k.strq.map (fun i => match i with
      | .copy x => (x.by_.ctx, x.id)
      | .ring x => (x.by_.ctx, x.id)) ++ k.copies.map (fun x => (x.by_.ctx, x.id)) ++ k.rings.map (fun x => (x.by_.ctx, x.id))
  | .gather => (s.die c.die).gq.map (fun g => (g.by_.ctx, g.id))
      ++ (s.die c.die).ochre.filterMap (fun o => o.2.req.map (fun g => (g.by_.ctx, g.id)))
  | .coll => s.colls.flatMap (fun i => (i.members.filter (fun m => !m.written)).map (fun m => (m.by_.ctx, m.id)))
  | _ => []

/-- Whether a window store of a part, or of its context where both says so, issued before a number is still to be
written (R256, R304). -/
def State.windowPending (s : State) (p : PartRef) (both : Bool) (before : Nat) : Bool :=
  s.clusters.any fun k => (k.2.waiting ++ k.2.flying).any fun t =>
    t.id < before && !t.copy && !t.writes.isEmpty && (t.who = p || (both && t.who.ctx? = p.ctx?))

/-- Whether an access of a part, or of its context where both says so, on a path and issued before a number is not
performed at a scope. To a unit's path a store counts only once its home has acknowledged it (R266). -/
def State.pending (s : State) (p : PartRef) (both : Bool) (path : Path) (before : Nat) (scope : Scope)
    (toUnit : Bool) : Bool :=
  let sc := if toUnit && !scope.wide then .die else scope
  (scope == .sys && (s.part (s.partN p.die)).flush.any (fun f => f.2.2 < before && f.2.1 = path
    && (f.1 = p || both || !path.ofPart))) ||
  s.accs.any (fun a => a.id < before && a.path = path
    && (a.who = p || (both && (match p with | .gang d c x _ => a.by_.ctx = ⟨d, c, x⟩ | .ochre _ _ => false)))
    && !a.performedAt sc)
  || (path = .tile && s.windowPending p both before)
  || (match p with
      | .gang d c x _ => anyBefore ⟨d, c, x⟩ before (s.unitIds ⟨d, c, x⟩ path)
      | .ochre _ _ => false)

/-- Whether every store of others that a part has read is acknowledged (R120, R123, R267). -/
def State.seenDone (s : State) (p : PartRef) : Bool :=
  (s.thread p).seen.all (fun id => match s.acc id with
    | some b => !b.isOpen
    | none => true)

/-- The same for both parts of a context. -/
def State.ctxSeenDone (s : State) (c : CtxRef) : Bool :=
  s.seenDone (.gang c.die c.core c.ctx false) && s.seenDone (.gang c.die c.core c.ctx true)

/-- Whether a fence holds a bundle of a part that uses paths (R125). It is cumulative (R123): beyond the core, and
before a unit's path, the stores of others that the part has read must be acknowledged too. -/
def State.fenceHolds (s : State) (p : PartRef) (f : FenceMark) (uses : List Path) : Bool :=
  let cum := f.scope.wide && !s.seenDone p
  match f.paths with
  | none => uses.any (fun y => s.pending p f.both y f.before f.scope false || (cum && y.ofPart))
  | some (x, y) => uses.contains y && (s.pending p f.both x f.before f.scope (!y.ofPart)
      || ((cum || (!y.ofPart && !s.seenDone p)) && x.ofPart))

/-- Whether no acquire and no fence of its part holds an access back. -/
def State.acquired (s : State) (a : Access) : Bool := s.accs.all fun b => a.id ≤ b.id || !behindAcquire a b

def State.unfenced (s : State) (a : Access) : Bool :=
  (s.thread a.who).fences.all (fun f => a.id < f.before || !s.fenceHolds a.who f [a.path])

/-- Whether what a release orders is performed: the earlier accesses of its part, the stores of others that the part has
read (R120), its window stores (R256), and at .sys the flush of its part's host writes (R123, R124, R274). At its home
the agents that read through the L2 count (R266). DEDUCED, log 17. -/
def State.relDone (s : State) (home : Bool) (a : Access) : Bool :=
  (s.accs.all fun b => a.id ≤ b.id || !behindRelease home a b)
  && (match a.rel with
      | some sc => (!(sc.wide || home) || s.seenDone a.who) && !s.windowPending a.who false a.id
          && (sc != .sys || (s.part (s.partN a.who.die)).flush.all (fun f => f.1 != a.who || a.id ≤ f.2.2))
      | none => true)

/-- Whether no acquire, release or fence holds an access back. -/
def State.released (s : State) (home : Bool) (a : Access) : Bool := s.acquired a && s.unfenced a && s.relDone home a

/-- Whether the stores that a store depends on, through a load that took their value early, are performed: entered, or
at their homes (R269). -/
def State.afterDone (s : State) (home : Bool) (a : Access) : Bool :=
  a.after.all fun id => match s.acc id with
    | some b => b.performedAt (if home then .die else .core)
    | none => true

/-- Whether a scope around one context covers another (R264). -/
def State.covers (s : State) (sc : Scope) (c r : CtxRef) : Bool :=
  let x := s.homeOf c
  let y := s.homeOf r
  match sc with
  | .gang => c = r
  | .core => x.die = y.die && x.core = y.core
  | .die => x.die = y.die
  | .pkg => s.partN c.die = s.partN r.die
  | .sys => true

/-- Whether bytes stand written by a release that the agents of its scope do not see yet, for an agent that acts for a
context: it waits (R120, R264). -/
def State.hidden (s : State) (r : CtxRef) (own : Option PartRef) (pa n : Nat) : Bool :=
  s.accs.any fun b => own != some b.who && b.rel.any (fun sc => s.covers sc b.ctxOf r)
    && b.pieces.any (fun q => q.isEarly && q.pa.any (fun x => x < pa + n && pa < x + q.len))

/-- The pending store pieces of the core that a load sees, the last one on top (R247, R265, R267): those of the core's
agents that have entered the L1 store path, in the order they entered, then its own earlier ones on its path and those
of its context to TSO pages. No later store of its own path is among them, nor one that is discarded (R395). -/
def State.visible (s : State) (a : Access) (p : Piece) : List (Nat × Piece) :=
  let sees (b : Access) (q : Piece) : Bool :=
    q.isOpen && !q.isEarly && p.overlaps q && ((b.id < a.id && a.who = b.who && a.path = b.path)
      || (b.id < a.id && a.ctxOf = b.ctxOf && p.tso && q.tso)
      || (sameCore a b && p.weak && q.entered && !(a.who = b.who && a.path = b.path && a.id < b.id)))
  let all := s.accs.flatMap fun b =>
    if b.op.isStore && !b.dropped then (b.pieces.filter (sees b)).map (fun q => (b.id, q)) else []
  sortBy (fun e => e.2.entry) (all.filter (fun e => e.2.entered)) ++ all.filter (fun e => !e.2.entered)

/-! ### Copies in flight (R204, R205, R253, R263) -/

/-- Fields of a layout record. -/
def tlKind (v : BitVec 128) : Nat := (v.extractLsb' 0 2).toNat
def tlRun (v : BitVec 128) : Nat := (v.extractLsb' 4 16).toNat + 1
def tlN1 (v : BitVec 128) : Nat := (v.extractLsb' 20 12).toNat + 1
def tlN2 (v : BitVec 128) : Nat := (v.extractLsb' 32 12).toNat + 1
def tlS1 (v : BitVec 128) : Int := (v.extractLsb' 44 24).toInt
def tlS2 (v : BitVec 128) : Int := (v.extractLsb' 68 32).toInt
def tlEstr (v : BitVec 128) : Int := (v.extractLsb' 100 24).toInt
def tlOb (v : BitVec 128) : Nat := (v.extractLsb' 124 3).toNat

/-- Bytes of a side. -/
def tlTotal (v : BitVec 128) : Nat := tlRun v * tlN1 v * tlN2 v

/-- pos of R205, modulo 2^64. -/
def tlPos (v : BitVec 128) (base : Word) (g t : Nat) : Nat :=
  let i0 := t % tlRun v
  let i1 := t / tlRun v % tlN1 v
  let i2 := t / (tlRun v * tlN1 v)
  ((base.toNat + g * tlEstr v + i2 * tlS2 v + i1 * tlS1 v + i0 : Int) % ((2 ^ 64 : Nat) : Int)).toNat

/-- The engines a copy acts for; with G one copy for the gang. -/
def CopyCmd.engines (m : CopyCmd) : List Nat := if m.gang then [0] else m.obs.map (·.1)

/-- The layout record of a side. -/
def CopyCmd.side (m : CopyCmd) (read : Bool) : BitVec 128 := if read then m.src else m.dst

/-- pos of byte t of a side for engine e. -/
def CopyCmd.pos (m : CopyCmd) (read : Bool) (e t : Nat) : Nat :=
  tlPos (m.side read) (if read then m.sa else m.sb) (if m.gang then 0 else e) t

/-- The bytes of a side that a copy has still to read, or to write: engine and t. -/
def CopyCmd.rest (m : CopyCmd) (read : Bool) : List (Nat × Nat) :=
  m.engines.flatMap fun e =>
    let k := ngetD m.moved e 0 + (if read then (ngetD m.ahead e []).length else 0)
    (upto k (tlTotal (m.side read) - k)).map (fun t => (e, t))

/-- What a die's L2 TLB holds for an address of a partition. -/
def State.heldAt (s : State) (die va : Nat) : Option Mapped :=
  (tlbFind (s.die die).l2tlb va).bind fun t => match s.apply (s.partN die) va t with
    | .hit m => some m
    | _ => none

/-- Whether an address lies on a TSO page, or on one not looked up yet. -/
def State.tsoMay (s : State) (die va : Nat) : Bool := (s.heldAt die va).elim true (·.tso)

/-- Whether a copy has still to read, or to write, bytes of pages that may be TSO. -/
def State.copyTso (s : State) (m : CopyCmd) (read : Bool) : Bool :=
  tlKind (m.side read) = 0 && (m.rest read).any (fun x => s.tsoMay m.by_.ctx.die (m.pos read x.1 x.2))

/-- Whether a copy of a context issued before a number has still to reach TSO pages (R253). DEDUCED, log 107. -/
def State.copiesTso (s : State) (c : CtxRef) (before : Nat) : Bool :=
  let h := s.homeOf c
  let k := s.core h.die h.core
  (k.copies ++ k.strq.filterMap (fun i => match i with | .copy m => some m | .ring _ => none)).any fun m =>
    m.id < before && m.by_.ctx = c && (s.copyTso m true || s.copyTso m false)

/-- Whether some page of n bytes from an address may be TSO. -/
def State.tsoRange (s : State) (die va n : Nat) : Bool :=
  n != 0 && (upto (va / 65536) ((va + n - 1) / 65536 - va / 65536 + 1)).any (fun k => s.tsoMay die (k * 65536))

/-- The rings of a core that are served or wait. -/
def Core.allRings (k : Core) : List RingCmd :=
  k.rings ++ k.strq.filterMap (fun i => match i with | .ring r => some r | .copy _ => none)

/-- Whether an engine command of a context other than a copy, issued before a number, has still to reach pages that may be
TSO (R253): a ring, a QCVT of global memory, a COLL, a gather request, whose thread may reach any. DEDUCED, log 107. -/
def State.othersTso (s : State) (c : CtxRef) (before : Nat) : Bool :=
  let h := s.homeOf c
  let k := s.core h.die h.core
  let mine (by_ : Issuer) (id : Nat) : Bool := id < before && by_.ctx = c
  k.allRings.any (fun r => mine r.by_ r.id && (s.tsoMay h.die r.desc.toNat || s.tsoMay h.die r.base.toNat))
  || k.morq.any (fun m => mine m.by_ m.id && (match m.op with
      | .qcvt src => src != 0 && src != 2 && s.tsoRange h.die m.sa.toNat (128 * min (m.sb.toNat % 2 ^ 32) (2 ^ 20))
      | _ => false))
  || s.colls.any (fun i => i.members.any (fun m => mine m.by_ m.id && !m.written
      && (i.nmemb = 0 || s.tsoMay h.die m.src.toNat || s.tsoMay h.die m.dst.toNat)))
  || (s.die h.die).gq.any (fun g => mine g.by_ g.id)
  || (s.die h.die).ochre.any (fun o => o.2.req.any (fun g => mine g.by_ g.id))

/-- The same of every engine command. -/
def State.unitsTso (s : State) (c : CtxRef) (before : Nat) : Bool := s.copiesTso c before || s.othersTso c before

/-- Whether a unit's access to a TSO page, for a command of a context, stands behind an earlier access of the context to
such pages: a read passes stores to other addresses (R253). -/
def State.tsoHeld (s : State) (c : CtxRef) (id : Nat) (read : Bool) (va n : Nat) : Bool :=
  s.unitsTso c id || s.accs.any fun a => a.place < id && a.ctxOf = c && a.pieces.any fun q =>
    q.isOpen && (q.tso || q.pa.isNone) && (!(read && a.op.isStore) || q.mayOverlap { q with va := va, len := n, pa := none })

/-- The compute die an I/O die is attached to (R14). -/
def iodDie (n : Nat) : Nat := if n = 0 then 0 else if n = 1 then 12 else if n = 2 then 11 else 23

/-- Whether an I/O die can be reached: the die it is attached to runs, which joins it to the others, and the link between
them stands (R14, R398, R403). -/
def State.iodUp (s : State) (n : Nat) : Bool := (s.die (iodDie n)).status == .running && !(s.link (34 + n)).closed

/-- The I/O die that presents a partition's function, the lowest-numbered one it owns (R26, R29). -/
def State.functionIod (s : State) (part : Nat) : Option Nat :=
  [0, 1, 2, 3].find? (fun n => bitOf (s.part part).dies (iodDie n))

/-- Whether an Airufold port stands in a partition and can be reached: eight on each I/O die (R26). -/
def State.portIn (s : State) (part port : Nat) : Bool :=
  port < 32 && bitOf (s.part part).dies (iodDie (port / 8)) && s.iodUp (port / 8)

/-- Whether traffic between a partition and its host passes: the I/O die of its function can be reached (R29, R398). -/
def State.hostUp (s : State) (part : Nat) : Bool := (s.functionIod part).all s.iodUp

/-- When a port was retired (R398). -/
def State.portRetired (s : State) (port : Nat) : Option Nat := (ngetD s.ports port { retiredAt := none }).retiredAt

/-- The port of a partition that serves a route, of those a test lets stand (R321). -/
def State.portFor (s : State) (part die module : Nat) (live : Nat → Bool) : Option Nat :=
  let l := (List.range 32).filter (fun p => s.portIn part p && live p && Config.portReaches p module)
  if l.isEmpty then none else l[(die + module) % l.length]?

/-- The port a route uses now. -/
def State.routePort (s : State) (part die module : Nat) : Option Nat :=
  s.portFor part die module (fun p => (s.portRetired p).isNone)

/-- The port a route used just before a port retired. -/
def State.portBefore (s : State) (port die module : Nat) : Option Nat :=
  match s.portRetired port with
  | none => none
  | some at_ => s.portFor (s.partN die) die module (fun p => match s.portRetired p with
      | none => true
      | some t => p = port || at_ ≤ t)

/-- Whether the route of a die to an address of another module still has a message on a port that was retired before a
moment: the route sends on its new port only after those (R409). -/
def State.routeBusy (s : State) (die pa since : Nat) : Bool :=
  paSpace pa = 1 && s.ports.any fun e => match e.2.retiredAt with
    | none => false
    | some t => t ≤ since && s.portBefore e.1 die (paModule pa) = some e.1
        && s.accs.any fun b => b.since < t && b.who.die = die
          && b.pieces.any (fun q => q.isOpen && q.pa.any (fun a => paSpace a = 1 && paModule a = paModule pa))

/-- Whether a piece of an access stands behind such a message. -/
def State.routeHeld (s : State) (a : Access) (p : Piece) : Bool := p.pa.any fun pa => s.routeBusy a.who.die pa a.since

/-- Whether a piece's place in the order of accesses lets it be performed, acquires, releases and fences apart: nothing it
stands behind is open, no store of its core's L1 path that it must follow, no release that it may not see yet. An
acquire takes no store that is not performed at its scope (R267). -/
def State.inOrder (s : State) (a : Access) (p : Piece) : Bool :=
  !a.behindOwn p && !s.routeHeld a p && !(p.tso && s.unitsTso a.ctxOf a.place)
  && (s.accs.all fun b => (a.id ≤ b.id || !(b.pieces.any fun q => q.isOpen && waitsFor a b p q))
      && !(b.pieces.any fun q => behindEntered a b p q))
  && (match a.acq with
      | some sc => if sc.wide then (s.visible a p).isEmpty else (s.visible a p).all (·.2.entered)
      | none => true)
  && (a.op.isStore || !(p.pa.any fun pa => s.hidden a.ctxOf (some a.who) pa p.len))
  && (a.op.isLoad || s.afterDone true a)

/-- Whether an access may be performed on a piece now. -/
def State.mayPerform (s : State) (a : Access) (p : Piece) : Bool := s.released true a && s.inOrder a p

/-- Whether a release may be performed on a piece before what it orders: only agents outside its scope see it then. What
still stands before it are plain stores that nothing but their homes holds back (R120, R264). DEDUCED, log 17. -/
def State.mayEarly (s : State) (a : Access) (p : Piece) : Bool :=
  a.rel.any (· != .sys) && a.acq.isNone && !p.tso && s.acquired a && s.unfenced a && s.inOrder a p
  && !s.windowPending a.who false a.id
  && s.accs.all fun b => a.id ≤ b.id || !behindRelease true a b
      || (b.op.isStore && b.pieces.all (fun q => !q.isOpen || (q.pa.isSome && s.mayPerform b q)))

/-- Whether a load may take a piece's value now although an acquire stands before it: the value stands for every agent
that the acquire does not order (R264, R269). DEDUCED, log 17. -/
def State.mayTake (s : State) (a : Access) (p : Piece) : Bool :=
  a.op.isLoad && a.acq.isNone && !p.tso && !s.acquired a && s.unfenced a && s.inOrder a p

/-- Whether a store may enter its core's L1 store path: an earlier access of its path to one location has taken its value
or entered (R263, R266), nothing it depends on is outside, no acquire, release or fence holds it, and it is not
discarded. -/
def State.mayEnter (s : State) (b : Access) : Bool :=
  b.op.isStore && b.who.isGang && !b.dropped && s.released false b && s.afterDone false b
  && s.accs.all fun c => b.id ≤ c.id || c.who != b.who || c.path != b.path
      || c.pieces.all (fun q => !q.isOpen || q.entered || b.pieces.all (fun p => !p.mayOverlap q))

/-- A store's pieces that pass a test enter the L1 store path; loads of the core that an acquire holds lose what they took
of those bytes. -/
def State.enterOne (s : State) (b : Access) (test : Access → Piece → Bool) : State :=
  let goes (q : Piece) : Bool := q.isOpen && q.weak && q.pa.isSome && !q.entered && test b q
  if b.pieces.any goes && s.mayEnter b then
    let (n, s) := s.fresh
    let s := (b.pieces.filter goes).foldl (fun s q => s.squash (q.pa.getD 0) q.len
      (fun sc a => sameCore a b && s.covers sc a.ctxOf b.ctxOf)) s
    s.setAcc { b with pieces := b.pieces.map (fun q => if goes q then { q with entry := n + 1 } else q) }
  else s

/-- Stores to weak pages that pass a test enter their cores' L1 store paths in issue order, where nothing holds them back
(R247, R266). -/
def State.enter (s : State) (test : Access → Piece → Bool) : State :=
  s.accs.foldl (fun s b => match s.acc b.id with
    | some b => s.enterOne b test
    | none => s) s

/-- A load looks into the L1 once the stores of its core to its bytes have entered. -/
def State.enterFor (s : State) (a : Access) (p : Piece) : State := s.enter fun b q => sameCore a b && p.overlaps q

/-- The stores a part's narrow fences wait for enter (R266). -/
def State.enterFenced (s : State) (p : PartRef) : State :=
  let l := (s.thread p).fences.filter (fun f => !f.scope.wide)
  if l.isEmpty then s
  else s.enter fun b _ => l.any (fun f => b.id < f.before && (b.who = p || (f.both && b.who.ctx? = p.ctx?)))

/-- Bytes of a piece as a load takes them. -/
def overlay (base : Nat) (bytes : List Byte) (q : Piece) (qa : Nat) : List Byte :=
  (indexed bytes).map fun e =>
    let x := base + e.1
    if qa ≤ x && x < qa + q.len then at' q.data (x - qa) e.2 else e.2

/-- The value a load takes for a piece, and the pending stores it has read. DEDUCED, log 15. -/
def State.takeValue (s : State) (a : Access) (p : Piece) : List Byte × List Nat :=
  match p.pa with
  | none => (p.data, [])
  | some pa =>
    let vis := match a.who with | .gang _ _ _ _ => s.visible a p | .ochre _ _ => []
    let bytes := vis.foldl (fun bs q =>
      let (x, y) := match q.2.pa with | some qa => (pa, qa) | none => (p.va, q.2.va)
      overlay x bs q.2 y) (s.mem.read pa p.len)
    (bytes, dedup (vis.map (·.1)))

/-- Of the stores a load has read, those of its own part and path, and the others (R267, R271). -/
def State.ownOf (s : State) (a : Access) (l : List Nat) : List Nat :=
  l.filter (fun id => (s.acc id).any (fun b => b.who = a.who && b.path = a.path))
def State.othersOf (s : State) (a : Access) (l : List Nat) : List Nat :=
  l.filter (fun id => (s.acc id).any (fun b => b.who != a.who || b.path != a.path))

/-- The stores of others that a part has read before their homes acknowledged them, with more of them. -/
def State.noteSeen (s : State) (p : PartRef) (l : List Nat) : State :=
  let t := s.thread p
  s.setThread p { t with seen := t.seen ++ l.filter (fun i => !t.seen.contains i) }

/-- A line that a part reads reaches the L2 slices and, of a cacheable page, the core's L1, where the line brought in
last pushes out the one brought in longest ago (R18, R247). DESIGN CHOICE, log 97. -/
def State.holdLine (s : State) (who : PartRef) (pa : Nat) (cached : Bool) : State :=
  let s := s.l2Read who.die pa cached
  match who with
  | .gang d c _ _ =>
    if cached && paLocal pa then
      let k := s.core d c
      s.setCore d c { k with l1 := (pa / 64 :: k.l1.filter (· != pa / 64)).take 8192 }
    else s
  | .ochre _ _ => s

/-! ### Completion (R104, R357, R395) -/

/-- The failing piece an access reports: the lowest in (engine, element) order that is no helper's (R357). -/
def Access.failure (a : Access) : Option (Piece × BitVec 8) :=
  a.pieces.foldl (fun best p =>
    match p.st with
    | .failed c =>
      if p.helper then best
      else match best with
        | none => some (p, c)
        | some (q, _) => if p.eng < q.eng || (p.eng = q.eng && p.elem < q.elem) then some (p, c) else best
    | _ => best) none

/-- An access that failed: every later release of the part that orders it is discarded, and so are the arrivals it
stands before (R395). -/
def State.discardReleases (s : State) (a : Access) : State :=
  let s := { s with accs := s.accs.map (fun b =>
    if a.id < b.id && a.who = b.who && b.rel.isSome then { b with dropped := true } else b) }
  match a.who with
  | .gang d c x _ =>
    let k := s.ctx ⟨d, c, x⟩
    s.setCtx ⟨d, c, x⟩ { k with arrivals := k.arrivals.filter (fun r => r.before ≤ a.id) }
  | .ochre _ _ => s

/-- The access causes of R361: an access that fails with one of them completes without effect (R395). -/
def accessCause (code : BitVec 8) : Bool := 0x41 ≤ code.toNat && code.toNat ≤ 0x4C

/-- A unit's command that failed in an access: the arrivals of its context that it stands before add nothing (R395). -/
def State.dropArrivals (s : State) (c : CtxRef) (id : Nat) (code : BitVec 8) : State :=
  let k := s.ctx c
  if accessCause code then s.setCtx c { k with arrivals := k.arrivals.filter (fun r => r.before ≤ id) } else s

/-- The routers an access's packets pass: its core's, and those of the slices that are home to it. -/
def State.routersOf (s : State) (a : Access) : List (Nat × Nat) :=
  (match s.seat a.who with
    | .gang d c _ _ => [(d, c)]
    | .ochre _ _ => []) ++ a.pieces.filterMap (fun p => (p.pa.filter paLocal).map homeRouter)

/-- An access is complete: its counter falls and its causes, if any, are delivered, an index out of range as kind 2
(R187); a discarded release raises none (R395). A failed access of an Ochre thread ends the thread at once (R381). -/
def State.finish (s : State) (a : Access) : State :=
  let s := ({ s with accs := s.accs.filter (fun b => b.id != a.id) }).wcDown a.who a.wc
  let s := s.unlist (s.seat a.who).die (.access a.id)
  let s := s.carryAll (s.routersOf a)
  let s := match if a.dropped then none else a.index with
    | some (e, k) => s.raiseBy a.by_ 0x23 2 (BitVec.ofNat 64 (e * 2 ^ 16 + k % 2 ^ 11)) e
    | none => s
  match if a.dropped then none else a.failure with
  | none => s
  | some (p, code) =>
    let s := s.discardReleases a
    match a.who with
    | .ochre d i => s.setOchre d i { s.ochre d i with done := true, fail := some code }
    | .gang _ _ _ _ => s.raiseBy a.by_ code 3 (BitVec.ofNat 64 (if code = 0x49 then p.va / 64 * 64 else p.va)) p.eng

/-! ### Reads before issue (R133, R144, R145) -/

/-- The answer of a read a bundle waits for before it issues. -/
inductive Peek where
  | bytes (l : List Byte)
  | fail (code : BitVec 8) (va : Nat)
  | wait
  deriving DecidableEq, Repr

/-- Whether a port of a partition reaches another module (R321, R409). -/
def State.moduleUp (s : State) (part module : Nat) : Bool :=
  (List.range 32).any fun p => s.portIn part p && (s.portRetired p).isNone && Config.portReaches p module

/-- Why a physical address cannot be reached now: host memory needs its link (R408) and the way to it (R398), another
module a port (R409). DEDUCED, log 55. -/
def State.cutOff (s : State) (part pa : Nat) : Option (BitVec 8) :=
  if paSpace pa = 2 then (if (s.part part).pcieUp && s.hostUp part then none else some 0x4B)
  else if paSpace pa = 1 then (if s.moduleUp part (paModule pa) then none else some 0x4C)
  else none

/-- Why a read of a physical address fails: it cannot be reached, or its line is poisoned (R392). -/
def State.readFault (s : State) (part pa : Nat) : Option (BitVec 8) :=
  match s.cutOff part pa with
  | some c => some c
  | none => if s.poisoned pa then some 0x49 else none

/-- A plain scalar load of a part made before its bundle issues: translated through its core (an Ochre thread through
the die), ordered like a load of the next issue number, with acquire where one is asked for; a miss joins the merge
table and the bundle waits. -/
def State.peekWith (s : State) (p : PartRef) (va n : Nat) (acq : Option Scope) : Peek × State :=
  let part := s.partN p.die
  let (r, s) := match p with
    | .gang d c _ _ => s.lookupCore d c part va .read
    | .ochre d _ => s.lookupThread d part va .read
  match r with
  | .refused c => (.fail c va, s)
  | .miss => (.wait, s.miss p.die part { who := .loops p, kind := .read, va := va, helper := false })
  | .hit m =>
    let q : Piece := { Piece.mk' va n [] with
      pa := some m.pa, weak := m.cached && !m.tso, tso := m.tso, cached := m.cached }
    let by_ : Issuer := match p with
      | .gang d c x sp => { ctx := ⟨d, c, x⟩, spare := sp, pc := 0, at_ := 0, inHandler := false }
      | .ochre d i => match (s.ochre d i).req with
        | some g => g.by_
        | none => { ctx := ⟨0, 0, 0⟩, spare := false, pc := 0, at_ := 0, inHandler := false }
    let a : Access := { id := s.nextId, who := p, by_ := by_, path := match p with | .gang _ _ _ _ => .scalar | .ochre _ _ => .gather,
                        op := .loadReg 0 n false, pieces := [q], acq := acq, rel := none, wc := 4,
                        dropped := false, dead := [], since := s.time }
    if !(s.setThread p { s.thread p with fences := [] }).mayPerform a q then (.wait, s)
    else match s.readFault part m.pa with
      | some c => (.fail c (if c = 0x49 then va / 64 * 64 else va), s)
      | none =>
        let (l, seen) := s.takeValue a q
        (.bytes l, (s.noteSeen p (s.othersOf a seen)).holdLine p m.pa m.cached)

/-- The same with no acquire. -/
def State.peek (s : State) (p : PartRef) (va n : Nat) : Peek × State := s.peekWith p va n none

/-! ### Instruction fetch (R56, R82) -/

/-- The answer of a fetch of one word. -/
inductive Fetched where
  | word (w : BitVec 32)
  | fail (code : BitVec 8)
  | wait
  deriving DecidableEq, Repr

/-- The 16 words of a 64-byte line. -/
def lineWords (l : List Byte) : List (BitVec 32) :=
  (List.range 16).map (fun i => BitVec.ofNat 32 (ofBytes ((l.drop (4 * i)).take 4)))

/-- The image a part runs: of an Ochre thread, the requester's (R208). -/
def State.imageOf (s : State) : PartRef → Nat
  | .gang d c x _ => (s.ctx ⟨d, c, x⟩).lrec.image
  | .ochre d i => match (s.ochre d i).req with
    | some r => (s.ctx r.by_.ctx).lrec.image
    | none => 0

/-- The line of code around a word translated and read through the L2, as its image was loaded (R82). A page that is not
held, or refused, is that of the word (R361). -/
def State.readLine (s : State) (p : PartRef) (va : Nat) : Except (Option (BitVec 8)) (List (BitVec 32)) × State :=
  let part := s.partN p.die
  let (r, s) := match p with
    | .gang d c _ _ => s.lookupCore d c part va .fetch
    | .ochre d _ => s.lookupThread d part va .fetch
  match r with
  | .refused c => (.error (some c), s)
  | .miss => (.error none, s.miss p.die part { who := .fetch p, kind := .fetch, va := va, helper := false })
  | .hit m =>
    let pa := m.pa - va % 64
    match s.readFault part pa with
    | some c => (.error (some c), s)
    | none =>
      let s := match p with
        | .gang d c _ _ => s.carry d c
        | .ochre _ _ => s
      (.ok (lineWords (s.codeBytes part (s.imageOf p) pa 64)), s.l2Read p.die pa m.cached)

/-- One word of code. A sequencer keeps lines of its image in the core's 128 KiB instruction cache, least recently used
leaving first, and they never follow later stores (R18, R82). -/
def State.fetchWord (s : State) (p : PartRef) (va : Nat) : Fetched × State :=
  let line := va / 64 * 64
  let pick (l : List (BitVec 32)) : Fetched := .word (at' l (va % 64 / 4) 0)
  match p with
  | .gang d c x _ =>
    let img := (s.ctx ⟨d, c, x⟩).lrec.image
    let k := s.core d c
    let hit (l : ILine) : Bool := l.image = img && l.va = line
    match k.icache.find? hit with
    | some l => (pick l.words, s.setCore d c { k with icache := l :: k.icache.filter (fun m => !hit m) })
    | none =>
      match s.readLine p va with
      | (.ok w, s) =>
        let k := s.core d c
        (pick w, s.setCore d c { k with icache := ({ image := img, va := line, words := w } :: k.icache).take 2048 })
      | (.error (some c), s) => (.fail c, s)
      | (.error none, s) => (.wait, s)
  | .ochre _ _ =>
    match s.readLine p va with
    | (.ok w, s) => (pick w, s)
    | (.error (some c), s) => (.fail c, s)
    | (.error none, s) => (.wait, s)

end Sys2Proof.Machine
end

