-- ==== Sys2Proof/Machine/Flags.lean ====
section
/-!
DEFINITION. The status flags: the bits of ARSTAT (R70) and UDIS of CTXCTL (R148), and how operations set them.
-/
namespace Sys2Proof.Machine

/-! ### Flags (R70) -/

abbrev Flags := BitVec 7
def fNV : Flags := 1
def fDZ : Flags := 2
def fOF : Flags := 4
def fUF : Flags := 8
def fNX : Flags := 16
def fSATF : Flags := 32
def fSTALEZ : Flags := 64

/-- ARSTAT as a register (R70). -/
def Context.arstatWord (c : Context) : Word := c.arstat.setWidth 64

/-- CTXCTL as a register (R148). -/
def Context.ctxctlWord (c : Context) : Word :=
  (if c.ftz then 1 else 0) ||| (if c.uchk then 2 else 0) ||| (if c.udis then 4 else 0)

/-- UDIS set by a uniform branch that met disagreement (R46). -/
def State.setUdis (s : State) (c : CtxRef) : State := s.setCtx c { s.ctx c with udis := true }

/-- The flags of one engine's element count only where the engine is an active lane (R70). -/
def laneFlags (helper : Bool) (f : Flags) : Flags := if helper then 0 else f

end Sys2Proof.Machine
end

