-- ==== Sys2Proof/Machine/Num.lean ====
section
/-!
DEFINITION. The number formats and their rounding: exact values as dyadics, round_to with its flags, the exact
operations over them and the special functions (R60 to R78, R183).
-/
namespace Sys2Proof.Machine

/-! ### Exact values -/

/-- An exact value: a NaN, signalling or quiet, an infinity, or a dyadic number with a sign of its own, so that a zero
keeps it. A value known only to lie strictly between two neighbours of a fine grid stands as their odd middle. -/
inductive Val where
  | nan (sig : Bool)
  | inf (neg : Bool)
  | fin (neg : Bool) (m : Nat) (e : Int)
  deriving DecidableEq, Repr

/-- Bits of a format (R60); .ter counts as a byte here and is read by its own functions. -/
def fmtWidth (f : Nat) : Nat :=
  if f = 0 then 64 else if f = 1 || f = 6 then 32 else if f = 2 || f = 3 || f = 7 then 16
  else if f = 10 then 4 else if f = 12 then 1 else 8

/-- Exponent bits, fraction bits and bias of a floating-point format (R61). -/
def floatParams (f : Nat) : Nat × Nat × Int :=
  if f = 0 then (11, 52, 1023) else if f = 1 then (8, 23, 127) else if f = 2 then (8, 7, 127)
  else if f = 3 then (5, 10, 15) else if f = 4 then (4, 3, 7) else (5, 2, 15)

/-- Whether a format is a floating-point one. -/
def isFloatFmt (f : Nat) : Bool := f < 6

/-- Whether a format is a signed integer one. -/
def isSignedFmt (f : Nat) : Bool := 6 ≤ f && f ≤ 10 && f != 9

/-- A signed number from an integer. -/
def Val.ofInt (i : Int) : Val := .fin (i < 0) i.natAbs 0

/-- A number's integer reading in a format of so many bits. -/
def signedOf (w v : Nat) : Int :=
  let m := v % 2 ^ w
  if m < 2 ^ (w - 1) then m else (m : Int) - (2 ^ w : Nat)

/-- The integer an element of an integer format holds. -/
def intOf (f v : Nat) : Int := if isSignedFmt f then signedOf (fmtWidth f) v else (v % 2 ^ fmtWidth f : Nat)

/-- The value of an element's bits (R61, R62). -/
def valOf (f v : Nat) : Val :=
  if isFloatFmt f then
    let (eb, fb, bias) := floatParams f
    let frac := v % 2 ^ fb
    let ex := v >>> fb % 2 ^ eb
    let neg := v >>> (eb + fb) % 2 = 1
    if f = 4 then
      (if ex = 15 && frac = 7 then .nan false
       else if ex = 0 then .fin neg frac (1 - bias - fb)
       else .fin neg (frac + 2 ^ fb) (ex - bias - fb))
    else if ex = 2 ^ eb - 1 then
      (if frac = 0 then .inf neg else .nan (f < 4 && frac < 2 ^ (fb - 1)))
    else if ex = 0 then .fin neg frac (1 - bias - fb)
    else .fin neg (frac + 2 ^ fb) (ex - bias - fb)
  else .ofInt (intOf f v)

/-- The canonical quiet NaN (R62). -/
def canonicalNan (f : Nat) : Nat :=
  if f = 0 then 0x7FF8000000000000 else if f = 1 then 0x7FC00000 else if f = 2 then 0x7FC0
  else if f = 3 then 0x7E00 else if f = 4 then 0x7F else 0x7E

/-- Encoding of an infinity. -/
def infBits (f : Nat) (neg : Bool) : Nat :=
  let (eb, fb, _) := floatParams f
  ((2 ^ eb - 1) <<< fb) + (if neg then 2 ^ (eb + fb) else 0)

/-- Encoding of the largest finite number. -/
def maxBits (f : Nat) (neg : Bool) : Nat :=
  let (eb, fb, _) := floatParams f
  (if f = 4 then 0x7E else ((2 ^ eb - 1) <<< fb) - 1) + (if neg then 2 ^ (eb + fb) else 0)

/-- Encoding of a zero. -/
def zeroBits (f : Nat) (neg : Bool) : Nat :=
  let (eb, fb, _) := floatParams f
  if neg then 2 ^ (eb + fb) else 0

/-- The least and greatest integers of an integer format. -/
def intMin (f : Nat) : Int := if isSignedFmt f then -((2 ^ (fmtWidth f - 1) : Nat) : Int) else 0
def intMax (f : Nat) : Int :=
  if isSignedFmt f then ((2 ^ (fmtWidth f - 1) : Nat) : Int) - 1 else ((2 ^ fmtWidth f : Nat) : Int) - 1

/-- The low bits of an integer in a format. -/
def intBits (f : Nat) (i : Int) : Nat := (i % ((2 ^ fmtWidth f : Nat) : Int)).toNat

/-! ### Rounding (R66, R67) -/

/-- Whether a truncated magnitude is rounded away from zero: quot and the dropped rem of 2^k, mode rm. -/
def roundsUp (rm : Nat) (neg : Bool) (quot rem k : Nat) : Bool :=
  if rem = 0 then false
  else if rm = 0 then (2 ^ k < 2 * rem || (2 * rem = 2 ^ k && quot % 2 = 1))
  else if rm = 1 then false
  else if rm = 2 then neg
  else !neg

/-- A magnitude rounded to a multiple of 2^q: the multiple and whether it differs. -/
def roundAt (rm : Nat) (neg : Bool) (m : Nat) (e q : Int) : Nat × Bool :=
  if q ≤ e then (m <<< (e - q).toNat, false)
  else
    let k := (q - e).toNat
    let quot := m >>> k
    let rem := m % 2 ^ k
    (if roundsUp rm neg quot rem k then quot + 1 else quot, rem != 0)

/-- Bits a number takes. -/
def bitLen (n : Nat) : Nat := if n = 0 then 0 else n.log2 + 1

/-- round_integer of R67. -/
def roundInt (rm : Nat) (neg : Bool) (m : Nat) (e : Int) : Int × Bool :=
  let (q, nx) := roundAt rm neg m e 0
  (if neg then -(q : Int) else q, nx)

/-- An integer result wrapped or clamped (R68). -/
def intOut (f : Nat) (sat : Bool) (i : Int) : Nat × Flags :=
  if sat && (i < intMin f || intMax f < i) then (intBits f (if i < intMin f then intMin f else intMax f), fSATF)
  else (intBits f i, 0)

/-- The trit digit (0 to 2) of round_trit_bit, and its flags (R67, R375). -/
def roundTrit (v : Val) (rm : Nat) : Nat × Flags :=
  match v with
  | .nan _ => (1, fNV)
  | .inf neg => (if neg then 0 else 2, fSATF)
  | .fin neg m e =>
    let (i, nx) := roundInt rm neg m e
    let f := if nx then fNX else 0
    if i < -1 then (0, f ||| fSATF) else if 1 < i then (2, f ||| fSATF) else ((i + 1).toNat, f)

/-- round_to (R67): the bits written and the flags set. -/
def roundTo (f : Nat) (v : Val) (rm : Nat) (sat : Bool) : Nat × Flags :=
  if f = 11 then roundTrit v rm
  else if f = 12 then (match v with
    | .nan _ => (0, 0)
    | .inf _ => (1, 0)
    | .fin _ m _ => (if m = 0 then 0 else 1, 0))
  else if isFloatFmt f then
    match v with
    | .nan _ => (canonicalNan f, 0)
    | .inf neg => if sat then (maxBits f neg, 0) else if f = 4 then (canonicalNan f, 0) else (infBits f neg, 0)
    | .fin neg m e =>
      let (eb, fb, bias) := floatParams f
      if m = 0 then (zeroBits f neg, 0)
      else
        let p := fb + 1
        let emin : Int := 1 - bias - fb
        let q := max (e + bitLen m - p) emin
        let (y, nx) := roundAt rm neg m e q
        let topE : Int := (2 ^ eb : Nat) - (if f = 4 then 1 else 2) - bias - fb
        let topM := if f = 4 then 14 else 2 ^ p - 1
        let above := if q ≤ topE then decide (topM < y >>> (topE - q).toNat || (topM = y >>> (topE - q).toNat
            && y % 2 ^ (topE - q).toNat != 0)) else true
        if above then
          (if sat then maxBits f neg
           else if f = 4 then canonicalNan f
           else if rm = 0 || (rm = 3 && !neg) || (rm = 2 && neg) then infBits f neg else maxBits f neg, fOF ||| fNX)
        else
          let (y, q) := if y = 2 ^ p then (y / 2, q + 1) else (y, q)
          let sign := if neg then 2 ^ (eb + fb) else 0
          let tiny := y < 2 ^ fb
          let bits := if tiny then y else ((q + bias + fb).toNat <<< fb) + (y - 2 ^ fb)
          (sign + bits, if nx then (if tiny then fNX ||| fUF else fNX) else 0)
  else
    match v with
    | .nan _ => (if sat then 0 else intBits f (intMin f), fNV)
    | .inf neg =>
      if sat then (intBits f (if neg then intMin f else intMax f), fNV ||| fSATF)
      else (intBits f (intMin f), fNV)
    | .fin neg m e =>
      let (i, nx) := roundInt rm neg m e
      let fl := if nx then fNX else 0
      if intMin f ≤ i && i ≤ intMax f then (intBits f i, fl)
      else if sat then (intBits f (if i < intMin f then intMin f else intMax f), fl ||| fNV ||| fSATF)
      else (intBits f (intMin f), fl ||| fNV)

/-! ### Exact operations -/

/-- Whether a value is a signalling NaN. -/
def Val.sigNan : Val → Bool
  | .nan s => s
  | _ => false

def Val.isNan : Val → Bool
  | .nan _ => true
  | _ => false

def Val.isZero : Val → Bool
  | .fin _ m _ => m = 0
  | _ => false

def Val.neg : Val → Val
  | .nan s => .nan s
  | .inf n => .inf (!n)
  | .fin n m e => .fin (!n) m e

def Val.sign : Val → Bool
  | .nan _ => false
  | .inf n => n
  | .fin n _ _ => n

/-- The NaN an operation gives for its operands: NV for a signalling one (R62). -/
def nanOf (l : List Val) : Val × Flags := (.nan false, if l.any Val.sigNan then fNV else 0)

/-- The exact product; 0 times infinity is invalid. -/
def Val.mul (a b : Val) : Val × Flags :=
  if a.isNan || b.isNan then nanOf [a, b]
  else match a, b with
    | .fin n m e, .fin n' m' e' => (.fin (n != n') (m * m') (e + e'), 0)
    | x, y => if x.isZero || y.isZero then (.nan false, fNV) else (.inf (x.sign != y.sign), 0)

/-- A dyadic as an integer over a common exponent. -/
def scaleTo (n : Bool) (m : Nat) (e q : Int) : Int :=
  let v : Int := ((m <<< (e - q).toNat : Nat) : Int)
  if n then -v else v

/-- The exact sum, with IEEE 754's sign for a zero in the rounding mode; opposite infinities are invalid. -/
def Val.add (a b : Val) (rm : Nat) : Val × Flags :=
  if a.isNan || b.isNan then nanOf [a, b]
  else match a, b with
    | .inf n, .inf n' => if n = n' then (.inf n, 0) else (.nan false, fNV)
    | .inf n, _ => (.inf n, 0)
    | _, .inf n => (.inf n, 0)
    | .fin n m e, .fin n' m' e' =>
      if m = 0 && m' = 0 then (.fin (if n = n' then n else rm = 2) 0 0, 0)
      else
        let q := min e e'
        let v := scaleTo n m e q + scaleTo n' m' e' q
        if v = 0 then (.fin (rm = 2) 0 0, 0) else (.fin (v < 0) v.natAbs q, 0)
    | _, _ => (.nan false, 0)

/-- The order of two numbers that are no NaN: -1, 0 or 1; zeros compare equal. -/
def Val.cmp (a b : Val) : Int :=
  match a, b with
  | .inf n, .inf n' => if n = n' then 0 else if n then -1 else 1
  | .inf n, _ => if n then -1 else 1
  | _, .inf n => if n then 1 else -1
  | .fin n m e, .fin n' m' e' =>
    let q := min e e'
    let x := scaleTo n m e q
    let y := scaleTo n' m' e' q
    if x < y then -1 else if x = y then 0 else 1
  | _, _ => 0

/-- A quotient exact or as an odd middle: at least 80 significant bits and at least 8 fraction bits. -/
def quotient (neg : Bool) (a b : Nat) (e : Int) : Val :=
  let k := bitLen b + 80 + (if 0 ≤ e then e.toNat else 0)
  let q := (a <<< k) / b
  let r := (a <<< k) % b
  .fin neg (2 * q + (if r = 0 then 0 else 1)) (e - k - 1)

/-- The exact quotient of two values; division by zero is invalid here, as R168 says. -/
def Val.div (a b : Val) : Val × Flags :=
  if a.isNan || b.isNan then nanOf [a, b]
  else match a, b with
    | .inf _, .inf _ => (.nan false, fNV)
    | .inf n, y => (.inf (n != y.sign), 0)
    | x, .inf n => (.fin (x.sign != n) 0 0, 0)
    | .fin n m e, .fin n' m' e' =>
      if m' = 0 then (.nan false, fNV)
      else if m = 0 then (.fin (n != n') 0 0, 0)
      else (quotient (n != n') m m' (e - e'), 0)
    | _, _ => (.nan false, 0)

/-! ### FTZ (R69) -/

/-- Whether bits of FP64, FP32, BF16 or FP16 are subnormal. -/
def subnormal (f v : Nat) : Bool :=
  let (eb, fb, _) := floatParams f
  f < 4 && v >>> fb % 2 ^ eb = 0 && v % 2 ^ fb != 0

/-- An operand under FTZ. -/
def readFtz (ftz : Bool) (f v : Nat) : Val :=
  match valOf f v with
  | .fin n m e => if ftz && subnormal f v then .fin n 0 0 else .fin n m e
  | x => x

/-- A result under FTZ. -/
def roundFtz (ftz : Bool) (f : Nat) (x : Val × Flags) (rm : Nat) (sat : Bool) : Nat × Flags :=
  let (b, fl) := roundTo f x.1 rm sat
  if ftz && isFloatFmt f && subnormal f b then
    (zeroBits f (x.1.sign), x.2 ||| fl ||| fUF ||| fNX)
  else (b, x.2 ||| fl)

/-! ### Minimum, maximum and the two-operand operations of the trees (R73, R76, R180) -/

/-- Minimum or maximum of floats: a NaN gives NaN, -0 lies below +0. -/
def Val.pick (max : Bool) (a b : Val) : Val × Flags :=
  if a.isNan || b.isNan then nanOf [a, b]
  else
    let c := a.cmp b
    let less := c < 0 || (c = 0 && a.sign && !b.sign)
    (if less == max then b else a, 0)

/-- One node of a reduction: 0 sum, 1 minimum, 2 maximum, on the bits of a format. -/
def reduceNode (op f : Nat) (ftz : Bool) (rm : Nat) (sat : Bool) (x y : Nat) : Nat × Flags :=
  if isFloatFmt f then
    let a := readFtz ftz f x
    let b := readFtz ftz f y
    roundFtz ftz f (if op = 0 then a.add b rm else a.pick (op = 2) b) rm sat
  else
    let a := intOf f x
    let b := intOf f y
    if op = 0 then intOut f sat (a + b)
    else (intBits f (if op = 2 then max a b else min a b), 0)

/-- The value of a reduction nothing takes part in (R76). -/
def reduceRoot (op f : Nat) : Nat := if isFloatFmt f && op != 0 then canonicalNan f else 0

/-- One level of the pairwise tree: an absent operand passes the other on. -/
def treeLevel (node : Nat → Nat → Nat × Flags) : List (Option Nat) → List (Option Nat) × Flags
  | a :: b :: r =>
    let (l, f) := treeLevel node r
    match a, b with
    | some x, some y => (some (node x y).1 :: l, (node x y).2 ||| f)
    | some x, none => (some x :: l, f)
    | none, y => (y :: l, f)
  | [a] => ([a], 0)
  | [] => ([], 0)

/-- The tree of R76 over a list, levels as given. -/
def tree (node : Nat → Nat → Nat × Flags) : Nat → List (Option Nat) → Option Nat × Flags
  | 0, l => ((l.head?).getD none, 0)
  | n + 1, l =>
    let (l', f) := treeLevel node l
    let (r, g) := tree node n l'
    (r, f ||| g)

/-! ### Scaled values (R72) -/

/-- The product of an element and its two scales; exact, with NaN and 0 times infinity as R72 gives. -/
def scaled (x bs ts : Val) : Val × Flags :=
  let (p, f) := bs.mul ts
  if x.isNan || bs.isNan || ts.isNan then nanOf [x, bs, ts]
  else
    let zero := x.isZero || bs.isZero || ts.isZero
    let isInf (v : Val) : Bool := match v with | .inf _ => true | _ => false
    if zero && (isInf x || isInf bs || isInf ts) then (.nan false, fNV)
    else
      let (q, g) := x.mul p
      (q, f ||| g)

/-! ### Special functions (R73, R183) -/

/-- The whole square root of a number, bit by bit from bit n down. -/
def isqrt (n : Nat) (x : Nat) : Nat :=
  (List.range n).foldl (fun r i =>
    let t := r + 2 ^ (n - 1 - i)
    if t * t ≤ x then t else r) 0

/-- The square root of a positive dyadic, exact or as an odd middle. -/
def sqrtVal (m : Nat) (e : Int) : Val :=
  let k := 160 - min 160 (bitLen m) + (if (e - (160 - min 160 (bitLen m) : Nat)) % 2 = 0 then 0 else 1)
  let x := m <<< k
  let r := isqrt (bitLen x / 2 + 1) x
  .fin false (2 * r + (if r * r = x then 0 else 1)) ((e - k) / 2 - 1)

/-- The reciprocal square root of a positive dyadic, exact or as an odd middle. -/
def rsqVal (m : Nat) (e : Int) : Val :=
  let odd : Nat := if e % 2 = 0 then 0 else 1
  let x := m <<< odd
  let k := 2 * (bitLen x + 80)
  let r := isqrt (k / 2 + 1) (2 ^ k / x)
  .fin false (2 * r + (if r * r * x = 2 ^ k then 0 else 1)) (-(e - odd) / 2 - (k / 2 : Nat) - 1)

/-- ln 2 with 300 fraction bits, by the series of 2 artanh(1/3). -/
def ln2Fix : Nat :=
  ((List.range 96).foldl (fun (p : Nat × Nat) i => (p.1 + p.2 / (2 * i + 1), p.2 / 9)) (0, 2 ^ 301 / 3)).1

/-- 2 to the power f / 2^300, for f below 2^300, with 300 fraction bits: the exponential series. -/
def exp2Fix (f : Nat) : Nat :=
  let y := (f * ln2Fix) >>> 300
  ((List.range 72).foldl (fun (p : Nat × Nat) i => (p.1 + p.2, ((p.2 * y) >>> 300) / (i + 1))) (0, 2 ^ 300)).1

/-- The base-2 logarithm of z / 2^300, for z from 2^300 up to 2^301, with 300 fraction bits. -/
def log2Fix (z : Nat) : Nat :=
  let t := ((z - 2 ^ 300) <<< 300) / (z + 2 ^ 300)
  let t2 := (t * t) >>> 300
  let s := ((List.range 100).foldl (fun (p : Nat × Nat) i =>
    (p.1 + p.2 / (2 * i + 1), (p.2 * t2) >>> 300)) (0, t)).1
  ((2 * s) <<< 300) / ln2Fix

/-- 2^x for a dyadic x that is no integer, as an odd middle 240 bits deep; exponents past every format's range
stand at its edge. UNVERIFIED: no argument of FP32 or BF16 has its result nearer than 2^-240 to a rounding boundary
(log 9); unsafe if one has. -/
def exp2Val (neg : Bool) (m : Nat) (e : Int) : Val :=
  if e + bitLen m > 12 then .fin false 3 (if neg then -4096 else 4096)
  else
    let x : Int := scaleTo neg m e (min e 0)
    let d : Nat := 2 ^ (-(min e 0)).toNat
    let n := x / d
    let frac := (x % d).toNat
    if frac = 0 then .fin false 1 n
    else
      let f := (frac <<< 300) / d
      .fin false (2 * (exp2Fix f >>> 60) + 1) (n - 241)

/-- log2 of a positive dyadic: exact for a power of two, else an odd middle (log 9). -/
def log2Val (m : Nat) (e : Int) : Val :=
  let l := bitLen m
  let n : Int := e + l - 1
  if m = 2 ^ (l - 1) then .ofInt n
  else
    let f := log2Fix ((m <<< 300) >>> (l - 1)) >>> 60
    let v : Int := n * ((2 ^ 240 : Nat) : Int) + f
    if 0 ≤ v then .fin false (2 * v.natAbs + 1) (-241) else .fin true (2 * v.natAbs - 1) (-241)

/-- The five special functions on a value (R73): 0 VRCP, 1 VSQRT, 2 VRSQ, 3 VEXP2, 4 VLOG2. -/
def special (op : Nat) (x : Val) : Val × Flags :=
  match x with
  | .nan _ => nanOf [x]
  | .inf neg =>
    if op = 0 then (.fin neg 0 0, 0)
    else if op = 3 then (if neg then .fin false 0 0 else .inf false, 0)
    else if neg then (.nan false, fNV)
    else if op = 2 then (.fin false 0 0, 0) else (.inf false, 0)
  | .fin neg m e =>
    if m = 0 then
      (if op = 0 || op = 2 then (.inf neg, fDZ)
       else if op = 1 then (.fin neg 0 0, 0)
       else if op = 3 then (.fin false 1 0, 0) else (.inf true, fDZ))
    else if op = 0 then (quotient neg 1 m (-e), 0)
    else if op = 3 then (exp2Val neg m e, 0)
    else if neg then (.nan false, fNV)
    else if op = 1 then (sqrtVal m e, 0)
    else if op = 2 then (rsqVal m e, 0)
    else (log2Val m e, 0)

end Sys2Proof.Machine
end

