-- ==== Sys2Proof/Machine/Operands.lean ====
section
/-!
DEFINITION. Every operand form: scalar operands, literals and addresses (R84, R96, R111, R117), and the operands of
tile slots: shapes, element positions, sources by KIND, results as masked bits (R88, R153 to R156).
-/
namespace Sys2Proof.Machine

/-! ### Scalar words -/

/-- Literal j of the bundle; a missing one reads as 0, and decode never lets a word name it (R83). -/
def State.lit (s : State) (j : Nat) : BitVec 32 := if j = 0 then 0 else at' s.issue.lits (j - 1) 0

/-- Operand B of the R format: rb, or the selected literal sign-extended (R111). -/
def State.opB (s : State) (b : BitVec 5) (l : BitVec 3) : Word :=
  if l = 0 then s.rd b else (s.lit l.toNat).signExtend 64

/-- The bundle after the one being issued. -/
def State.nextPc (s : State) : Word := s.thr.pc

/-- Target of a B-format word (R96). -/
def State.target (s : State) (t : BitVec 21) : Word := s.issue.addr + (t.signExtend 64 <<< 2)

/-- Address a literal displaces the bundle by: a join, a break or a continuation (R97, R137, R188). -/
def State.litAddr (s : State) (j : Nat) : Word := s.issue.addr + ((s.lit j).signExtend 64 <<< 2)

/-- Effective address of a plain access of n bytes (R117). -/
def State.ea (s : State) (a : BitVec 5) (o : BitVec 12) (n : Nat) : Word :=
  s.rd a + o.signExtend 64 * BitVec.ofNat 64 n

/-- Effective address of an ordered access of n bytes (R119). -/
def State.eaOrdered (s : State) (a : BitVec 5) (o : BitVec 6) (n : Nat) : Word :=
  s.rd a + o.setWidth 64 * BitVec.ofNat 64 n

/-- Bytes and sign of an ordered size code (R96). -/
def sizeCode (z : BitVec 3) : Nat × Bool :=
  match z.toNat with
  | 0 => (1, false)
  | 1 => (2, false)
  | 2 => (4, false)
  | 3 => (8, false)
  | 4 => (1, true)
  | 5 => (2, true)
  | _ => (4, true)

/-- Scope of a scope code (R96). -/
def scopeOf (c : BitVec 3) : Scope :=
  match c.toNat with
  | 0 => .gang
  | 1 => .core
  | 2 => .die
  | 3 => .pkg
  | _ => .sys

/-- Path of a path code (R124). -/
def pathOf (c : BitVec 4) : Path :=
  match c.toNat with
  | 0 => .scalar
  | 1 => .tile
  | 2 => .copy
  | 3 => .matrix
  | 4 => .gather
  | 5 => .coll
  | _ => .quant

/-- The path of a part's scalar accesses: an Ochre thread's are its requester's gather path (R209). -/
def State.scalarPath (s : State) : Path := if s.onOchre then .gather else .scalar

/-- A flag as a register value. -/
def ofBool (b : Bool) : Word := if b then 1 else 0

/-! ### Shapes (R153, R154) -/

/-- Rows and row bytes of a shape code. -/
def shapeRows (c : BitVec 8) : Nat := 4 * ((c.extractLsb' 0 4).toNat + 1)
def shapeBytes (c : BitVec 8) : Nat := 32 * ((c.extractLsb' 4 4).toNat + 1)

/-- Whether a code is legal. -/
def shapeLegal (c : BitVec 8) : Bool := ((c.extractLsb' 0 4).toNat + 1) * ((c.extractLsb' 4 4).toNat + 1) ≤ 16

/-- Elements of a row of RB bytes. -/
def rowElems (f rb : Nat) : Nat := if f = 11 then 5 * rb else rb * 8 / fmtWidth f

/-! ### Elements of a tile as numbers -/

/-- n elements of w bits, the first lowest. -/
def splitElems (w n v : Nat) : List Nat := (List.range n).map (fun k => (v >>> (k * w)) % 2 ^ w)

/-- The number n elements of w bits form. -/
def joinElems (w : Nat) (l : List Nat) : Nat := l.foldr (fun x a => x % 2 ^ w + (a <<< w)) 0

/-- The mask of the bytes a shape covers. -/
def coverMask (bytes : Nat) : TileBits := BitVec.ofNat 16384 (2 ^ (8 * min bytes 2048) - 1)

/-- The five trits of a byte, each 0 to 2 (R64). -/
def tritDigits (b : Nat) : List Nat := [b % 3, b / 3 % 3, b / 9 % 3, b / 27 % 3, b / 81 % 3]

/-- The byte of five trit digits. -/
def tritByte (l : List Nat) : Nat := l.foldr (fun d a => d + 3 * a) 0

/-! ### Slots -/

/-- Numbers in a slot's register fields, rotation applied at decode (R85, R87). -/
def regNum (v : BitVec 7) : Nat := v.toNat % 64

/-- The cluster MOD[4] names (R89). -/
def slotCluster (f : Slot) : Cluster := if bitOf f.md 4 then .b else .a

/-- The cluster XCP reads: the one its destination is not in (R89). -/
def otherCluster : Cluster → Cluster
  | .a => .b
  | .b => .a

/-- The value a literal gives an element (R84): widened for FP64, a byte in every byte for packed formats. -/
def litElem (f : Nat) (l : BitVec 32) : Nat :=
  if f = 0 then
    let sign := l.toNat >>> 31 <<< 63
    let ex := l.toNat >>> 23 % 256
    let frac := l.toNat % 2 ^ 23
    if ex = 255 then sign + (2047 <<< 52) + (frac <<< 29)
    else (roundTo 0 (valOf 1 l.toNat) 0 false).1
  else l.toNat % 2 ^ fmtWidth f

/-- A tile whose elements all hold a value; packed formats repeat the byte (R84, R156). -/
def splat (f v : Nat) : Nat :=
  if f = 10 || f = 11 || f = 12 then joinElems 8 (List.replicate 2048 (v % 256))
  else joinElems (fmtWidth f) (List.replicate (16384 / fmtWidth f) v)

/-- The low bits of an engine scalar or literal that a format takes: a byte for packed formats (R156). -/
def scalarElem (f : Nat) (v : Nat) : Nat :=
  if f = 10 || f = 11 || f = 12 then v % 256 else v % 2 ^ fmtWidth f

/-- A half accumulator as a 2 KiB block (R88, R154). -/
def Engine.half (x : Engine) (v : BitVec 7) : Nat :=
  (x.accum (v.toNat % 8)).toNat >>> (if bitOf v 3 then 16384 else 0) % 2 ^ 16384

/-- Source A: a tile register of a cluster, or with KIND 2 a half accumulator. -/
def srcA (x : Engine) (cl : Cluster) (f : Slot) : Nat :=
  if f.kind = 2 then x.half f.srca else (x.tile cl (regNum f.srca)).toNat

/-- Source B by KIND: a tile, a literal or an engine scalar in every element (R88). -/
def srcB (s : State) (x : Engine) (cl : Cluster) (f : Slot) : Nat :=
  let fm := f.fmt.toNat
  if f.kind = 1 then
    let l := s.lit f.lit.toNat
    splat fm (if fm = 10 || fm = 11 || fm = 12 then l.toNat % 256 else litElem fm l)
  else if f.kind = 3 then splat fm (scalarElem fm (x.scalar (f.srcb.toNat % 16)).toNat)
  else (x.tile cl (regNum f.srcb)).toNat

/-- Source C. -/
def srcC (x : Engine) (cl : Cluster) (f : Slot) : Nat := (x.tile cl (regNum f.srcc)).toNat

/-- Engine-scalar operand B of KIND 3 or a literal of KIND 1, as 64 bits (R184). -/
def srcE (s : State) (x : Engine) (f : Slot) : Word :=
  if f.kind = 1 then (s.lit f.lit.toNat).signExtend 64 else x.scalar (f.srcb.toNat % 16)

/-- Rows and row bytes a slot works under in an engine. -/
def slotShape (x : Engine) (f : Slot) : Nat × Nat :=
  let c := x.shape f.sh.toNat
  (shapeRows c, shapeBytes c)

/-- The context of the bundle being issued, whether its part is the spare half, and the engines that act (R155). -/
def State.tileCtx (s : State) : Context := s.ctx s.home
def State.isSpare (s : State) : Bool := match s.issue.part with | .gang _ _ _ sp => sp | .ochre _ _ => false
def State.acting (s : State) : List Nat := s.tileCtx.acting s.isSpare s.issue.am

/-- The active lanes of the bundle's part, rising. -/
def State.activeLanes (s : State) : List Nat := (List.range 16).filter (fun e => bitOf s.issue.am e)

/-- A tile result of latency n: for each acting engine the bits and mask a function gives, with their flags; only
active lanes set flags (R70, R92, R155). -/
def State.tileResult (s : State) (n : Nat) (cl : Cluster) (f : Slot)
    (g : Nat → Engine → Nat × TileBits × Flags) : State :=
  let c := s.tileCtx
  let r := s.acting.map (fun e => (e, g e (c.engine e)))
  let flags := r.foldl (fun a p => a ||| laneFlags (c.helper p.1) p.2.2.2) 0
  (s.expose n (r.map (fun p => .tile p.1 cl (regNum f.dst) (BitVec.ofNat 16384 p.2.1) p.2.2.1))).orFlags s.home flags

/-- Where an element-wise operation writes: the positions of the shape, all of it but for a shape of fewer bytes. -/
def positions (x : Engine) (f : Slot) : Nat × Nat × TileBits :=
  let (rows, rb) := slotShape x f
  let n := rowElems f.fmt.toNat rb
  (rows, n, coverMask (rows * rb))

/-- An element-wise operation of up to three sources over the positions (R154, R160): element results with flags. -/
def mapElems (w count : Nat) (a b c : Nat) (g : Nat → Nat → Nat → Nat × Flags) : Nat × Flags :=
  let r := (List.range count).map (fun k =>
    g ((a >>> (k * w)) % 2 ^ w) ((b >>> (k * w)) % 2 ^ w) ((c >>> (k * w)) % 2 ^ w))
  (joinElems w (r.map (·.1)), r.foldl (fun x p => x ||| p.2) 0)

end Sys2Proof.Machine
end

