-- ==== Sys2Proof/Machine/Checks.lean ====
section
/-!
DEFINITION. The checks a bundle's words and slots take at issue, before anything of it takes effect (R152, R187, R362
steps 2 and 3, R376, R380, R381). Each meaning asks for its own instruction's check, and a bundle asks for all of them.
-/
namespace Sys2Proof.Machine

/-- A failed check: cause code, TRAPVAL and engine. -/
structure Failed where
  code : BitVec 8
  val : Word
  eng : Nat
  deriving DecidableEq, Repr

/-- A failed check of no engine. -/
def bad (code : BitVec 8) (val : Word) : Option Failed := some { code := code, val := val, eng := 0 }

/-- A check as a condition that must hold. -/
def need (ok : Bool) (code : BitVec 8) (val : Word) : Option Failed := if ok then none else bad code val

/-- The first failure of two. -/
def andThen (a b : Option Failed) : Option Failed := match a with | some f => some f | none => b

/-- The first failure of a list of checks by element. -/
def firstFail (l : List α) (f : α → Option Failed) : Option Failed := l.findSome? f

/-- The word index of the word at work, as TRAPVAL (R362). -/
def State.wordVal (s : State) : Word := BitVec.ofNat 64 s.issue.word

/-- An address that must be a multiple of n bytes. -/
def aligned (va : Word) (n : Nat) : Option Failed := need (va.toNat % n = 0) 0x40 va

/-- Whether the issuing part is a half of a split gang (R50). -/
def State.inHalf (s : State) : Bool :=
  match s.issue.part with
  | .gang d c x _ => (s.ctx ⟨d, c, x⟩).spare.isSome
  | .ochre _ _ => false

/-- The half-gang command fault (R50, R190). -/
def State.whole (s : State) : Option Failed := need (!s.inHalf) 0x0E s.wordVal

/-- The bottom of the stack and the part's own chain, top first: its entry, if any (R41, R48). -/
def State.topEntry (s : State) : Option StackEntry :=
  match s.issue.part with
  | .gang d c x _ => match s.thr.stack with
    | e :: _ => some e
    | [] => (s.ctx ⟨d, c, x⟩).base.head?
  | .ochre _ _ => none

/-- Entries of the context's stack over both chains (R45). -/
def State.stackDepth (s : State) : Nat :=
  match s.issue.part with
  | .gang d c x _ =>
    let k := s.ctx ⟨d, c, x⟩
    k.base.length + k.main.stack.length + (match k.spare with | some t => t.stack.length | none => 0)
  | .ochre _ _ => 0

/-- Engines of a mask whose condition bit has the branch's sense (R42). -/
def State.condMask (s : State) (am : BitVec 16) (k : BitVec 2) (sense : Bool) : BitVec 16 :=
  let c := s.tileCtx
  maskOf ((bitsOf am).filter (fun e => bitOf (c.engine e).k k.toNat == sense))

/-- Whether a divergent branch leaves both subsets non-empty. -/
def State.diverges (s : State) (k : BitVec 2) (sense : Bool) : Bool :=
  let t := s.condMask s.issue.am k sense
  t != 0 && t != s.issue.am

/-- The overflow check of a divergent branch (R45, R371). -/
def State.pushCheck (s : State) (k : BitVec 2) (sense : Bool) : Option Failed :=
  need (!(s.diverges k sense && 32 ≤ s.stackDepth)) 0x08 0

/-- The uniform-disagreement check (R46, R370). -/
def State.uniformCheck (s : State) (k : BitVec 2) (sense : Bool) : Option Failed :=
  need (!(s.issue.uchk && s.diverges k sense)) 0x07 ((s.condMask s.issue.am k sense).setWidth 64)

/-- Whether a word of the bundle pushes a stack entry, which SETAM then computes against (R130). -/
def State.pushesHere (s : State) : Bool :=
  s.issue.words.any fun i => match i with
    | .bdk k _ _ | .bdkLong k _ _ => s.diverges k true
    | .bdnk k _ _ | .bdnkLong k _ _ => s.diverges k false
    | _ => false

/-- The empty-active-mask check of SETAM (R130). -/
def State.setamCheck (s : State) (v : Word) : Option Failed :=
  need (!(v.setWidth 16 &&& s.tileCtx.lm == 0 && s.topEntry.isNone && !s.pushesHere)) 0x09 v

/-- The checks of a LOOP with n trips (R132). -/
def State.loopCheck (s : State) (target : Word) (n : Nat) : Option Failed :=
  andThen (need (!(target.toNat < s.nextPc.toNat)) 0x0A 0) (need (!(s.thr.loops.length = 6 && n != 0)) 0x0B 0)

/-- What the word at work reads at an address before its bundle issues: what was read then, else a read now. -/
def State.reading (s : State) (va n : Nat) (acq : Option Scope) : Peek × State :=
  match nget s.issue.mem s.issue.word with
  | some l => (.bytes l, s)
  | none => s.peekWith s.issue.part va n acq

/-- The two row pointers of LOOPS, each a plain load of its own (R133). -/
def State.rowPointers (s : State) (p : Word) : Peek × State :=
  match s.reading p.toNat 4 none with
  | (.bytes a, t) =>
    if (nget s.issue.mem s.issue.word).isSome then (.bytes a, t)
    else match t.peek s.issue.part (p + 4).toNat 4 with
      | (.bytes b, t) => (.bytes (a ++ b), t)
      | r => r
  | r => r

/-- The checks of LOOPS: pointer alignment, order of the row pointers, then those of LOOP (R133). -/
def State.loopsCheck (s : State) (p target : Word) : Option Failed :=
  if p.toNat % 4 != 0 then bad 0x40 p
  else match (s.rowPointers p).1 with
    | .bytes l =>
      let w0 := ofBytes (l.take 4)
      let w1 := ofBytes (l.drop 4)
      if w1 < w0 then bad 0x0D (BitVec.ofNat 64 (w1 * 2 ^ 32 + w0)) else s.loopCheck target (w1 - w0)
    | _ => none

/-- Registers a level binds after the LSTRs of the bundle before the word at work; the level of a LOOP or LOOPS of the
bundle starts with none (R136). -/
def State.boundRegs (s : State) : Option (List Nat) :=
  let fresh := s.issue.words.any (fun i => match i with | .loop _ _ | .loops _ _ => true | _ => false)
  let start : Option (List Nat) := if fresh then some [] else match s.thr.loops with
    | l :: _ => some (l.bind.map (·.1))
    | [] => none
  start.map fun b => (s.issue.words.take (s.issue.word - 1)).foldl (fun b i => match i with
    | .lstr d _ _ => if b.contains d.toNat then b else b ++ [d.toNat]
    | _ => b) b

/-- The checks of LSTR (R136). -/
def State.lstrCheck (s : State) (d : BitVec 5) : Option Failed :=
  match s.boundRegs with
  | none => bad 0x0A 0
  | some b => need (b.contains d.toNat || b.length < 4) 0x0C (d.setWidth 64)

/-- The CSR numbers, and those a program may write (R147). -/
def csrKnown (n : Nat) : Bool :=
  [0, 1, 2, 3, 4, 5, 6, 8, 9, 0xA, 0x10, 0x20, 0x21, 0x22, 0x23].contains n
def csrWritable (n : Nat) : Bool := [0, 1, 8, 9, 0xA, 0x10].contains n

/-- The illegal-CSR-access check (R146). -/
def csrCheck (n : BitVec 12) (writes : Bool) : Option Failed :=
  need (csrKnown n.toNat && (!writes || csrWritable n.toNat)) 0x0F (n.setWidth 64)

/-- Fields of a ring descriptor (R143). -/
structure Ring where
  pcount : Nat
  ccount : Nat
  nslot : Nat
  slotb : Nat
  base : Nat
  deriving DecidableEq, Repr

def ringOf (l : List Byte) : Ring :=
  { pcount := ofBytes (l.take 8), ccount := ofBytes ((l.drop 8).take 8), nslot := ofBytes ((l.drop 16).take 4),
    slotb := ofBytes ((l.drop 20).take 4), base := ofBytes ((l.drop 24).take 8) }

/-- Whether a descriptor obeys R143: the alignment of BASE, then NSLOT and SLOTB. -/
def Ring.aligned (r : Ring) : Bool := r.base % 64 = 0
def Ring.ok (r : Ring) : Bool := r.nslot != 0 && r.nslot ≤ 65536 && r.slotb % 64 = 0

/-- A ring has a slot for a side, and this is its address (R144): the difference of its counters is a number (R10). -/
def Ring.slot (r : Ring) (prod : Bool) : Option Word :=
  let k := if prod then r.pcount else r.ccount
  let a := BitVec.ofNat 64 (r.base + k % r.nslot * r.slotb)
  if prod then (if r.pcount < r.ccount + r.nslot then some a else none) else (if r.ccount < r.pcount then some a else none)

/-- The checks of SLOTWAIT and SLOTSIG (R144, R145). -/
def State.ringCheck (s : State) (desc : Word) : Option Failed :=
  if desc.toNat % 64 != 0 then bad 0x40 desc
  else match (s.reading desc.toNat 64 none).1 with
    | .bytes l =>
      let r := ringOf l
      if !r.aligned then bad 0x40 (BitVec.ofNat 64 r.base) else need r.ok 0x83 desc
    | _ => none

/-- The checks of RTE (R151, R352): inside a handler, at the depths it was entered with. -/
def State.rteCheck (s : State) : Option Failed :=
  match s.thr.handler with
  | none => bad 0x10 0
  | some h => need (s.thr.loops.length ≤ h.loopDepth && s.thr.stack.length ≤ h.stackDepth) 0x10 0

/-- The checks of LDCWT at issue (R150). -/
def State.ldcwtCheck (s : State) (d a : BitVec 5) : Option Failed :=
  let v := s.rd d
  let first := v.toNat % 512
  let count := v.toNat >>> 16 % 1024
  if count = 0 then none
  else if 512 < first + count then bad 0x11 (BitVec.ofNat 64 (count * 65536 + first))
  else aligned (s.rd a) 32

/-! ### Records (R376) -/

/-- mg, tl and ob records a command may write. -/
def mgOk (v : BitVec 128) : Bool :=
  (v.extractLsb' 121 7) == 0 && (v.extractLsb' 60 4) == 0 && (v.extractLsb' 72 2) != 3 && (v.extractLsb' 74 2) != 3
    && (v.extractLsb' 64 4).toNat ≤ 12 && (v.extractLsb' 68 4).toNat ≤ 12

def tlOk (v : BitVec 128) : Bool := !bitOf v 127 && (v.extractLsb' 2 2) == 0

/-- Fields of an OSB record (R71). -/
def obEfmt (v : BitVec 128) : Nat := (v.extractLsb' 56 4).toNat
def obBsen (v : BitVec 128) : Bool := bitOf v 60
def obLen (v : BitVec 128) : Nat := (v.extractLsb' 42 11).toNat
def obBase (v : BitVec 128) : Nat := (v.extractLsb' 32 10).toNat
def obSoff (v : BitVec 128) : Nat := (v.extractLsb' 64 16).toNat
def obBlock (v : BitVec 128) : Nat := 16 * 2 ^ (v.extractLsb' 53 3).toNat
def obTscale (v : BitVec 128) : Nat := (v.extractLsb' 0 32).toNat

def obOk (v : BitVec 128) : Bool :=
  (v.extractLsb' 80 48) == 0 && (v.extractLsb' 61 3) == 0 && (v.extractLsb' 53 3).toNat ≤ 4 && obEfmt v ≤ 12
    && 1 ≤ obLen v && obLen v ≤ 1024 && obSoff v % 2 = 0
    && (!obBsen v || [4, 5, 8, 10, 11].contains (obEfmt v))

/-- Bits an element of a range takes times ten, so that a trit's 1.6 is whole (R60). -/
def width10 (f : Nat) : Nat := if f = 11 then 16 else 10 * fmtWidth f

/-- The element count of a range (R168). -/
def obCount (v : BitVec 128) : Nat :=
  let bytes := if obBsen v then obSoff v else obLen v * 64
  if obEfmt v = 11 then bytes * 5 else bytes * 8 / fmtWidth (obEfmt v)

/-- Whether a record is valid at use under an allocation of so many bytes (R377). -/
def obValid (v : BitVec 128) (alloc : Nat) : Bool :=
  (obBase v + obLen v) * 64 ≤ alloc
    && (!obBsen v || (obSoff v != 0
        && obSoff v + 2 * ((obCount v + obBlock v - 1) / obBlock v) ≤ obLen v * 64))

/-- The fields of QPRUNE's sb (R202). -/
structure Prune where
  dst : Nat
  fmt : Nat
  n : Nat
  log2m : Nat
  trans : Bool
  gk : Bool
  rows : Nat
  cols : Nat
  deriving DecidableEq, Repr

def pruneOf (sb : Word) : Prune :=
  { dst := (sb.extractLsb' 0 18).toNat, fmt := (sb.extractLsb' 18 4).toNat, n := (sb.extractLsb' 22 7).toNat,
    log2m := (sb.extractLsb' 29 3).toNat, trans := bitOf sb 32, gk := bitOf sb 33,
    rows := (sb.extractLsb' 34 9).toNat, cols := (sb.extractLsb' 43 9).toNat }

/-- The conditions QPRUNE checks at issue (R232). -/
def Prune.ok (p : Prune) : Bool :=
  let m := 2 ^ p.log2m
  p.dst % 16 = 0 && [2, 3, 4, 5, 8, 10].contains p.fmt && 2 ≤ p.log2m && p.log2m ≤ 6
    && ((1 ≤ p.n && p.n ≤ m / 2) || p.n = m) && (!p.trans || p.n != m)
    && 1 ≤ p.rows && p.rows ≤ 256 && 1 ≤ p.cols && p.cols ≤ 256
    && (if p.gk then p.cols else p.rows) % m = 0
    && (!p.trans || (p.rows % m = 0 && p.cols % m = 0))

/-- Whether QCVT takes a source format (R201). -/
def sfmtOk (src f : Nat) : Bool := if src = 2 then f = 0 || f = 1 else 1 ≤ f && f ≤ 3

/-! ### Links (R14, R215 to R217) -/

/-- Whether a die is an end of a link. -/
def endDie (l die : Nat) : Bool := (linkEnds l).1 = die || (linkEnds l).2 = die

/-- The dies and I/O dies of a partition that a link touches: an I/O die belongs with its die's partition (R26). -/
def State.linkIn (s : State) (l part : Nat) : Bool :=
  let (a, b) := linkEnds l
  bitOf (s.part part).dies a || (b < 24 && bitOf (s.part part).dies b)

/-- TURN's checks (R216). -/
def State.turnCheck (s : State) (a : Word) : Option Failed :=
  let l := a.toNat % 64
  if 37 < l then bad 0x8B a
  else need (endDie l s.home.die && !(s.link l).boundary) 0x8A a

/-- LINKST's checks (R217). -/
def State.linkstCheck (s : State) (a : Word) : Option Failed :=
  let l := a.toNat % 64
  if 37 < l then bad 0x8B a else need (s.linkIn l (s.partN s.home.die)) 0x8A a

/-- NODESET's checks (R218): its fields, then the buffer's alignment. DEDUCED, log 22. -/
def nodesetCheck (a b : Word) (bin : BitVec 6) : Option Failed :=
  let rsize := b.toNat >>> 12 % 16
  let cap := b.toNat >>> 32 % 65536
  andThen (need (1 ≤ rsize && rsize ≤ 8 && 1 ≤ cap) 0x8C (bin.setWidth 64)) (aligned a 64)

/-- NODEPUT's checks (R219, R380). -/
def State.nodeputCheck (s : State) (a b : Word) (bin : BitVec 6) : Option Failed :=
  let die := b.toNat % 32
  andThen (need (bitOf (s.part (s.partN s.home.die)).dies die && (s.bin die bin.toNat).coal != 0) 0x8C
    (bin.setWidth 64)) (aligned a 8)

/-! ### The Ochre cores (R209, R381) -/

/-- The words an Ochre thread runs (R209). -/
def ochreRuns : Instr → Bool
  | .add .. | .sub .. | .mul .. | .mulh .. | .mulhn .. | .div .. | .divn .. | .rem .. | .remn .. | .and .. | .or ..
  | .xor .. | .shl .. | .shr .. | .sha .. | .clz .. | .popc .. | .min .. | .max .. | .minn .. | .maxn .. | .sel ..
  | .cmpeq .. | .cmpne .. | .cmplt .. | .cmple .. | .cmpltn .. | .cmplen .. | .movl .. | .movlD .. | .lea ..
  | .addi .. | .andi .. | .ori .. | .xori .. | .shli .. | .shri .. | .shai .. | .cmplti .. => true
  | .ldb .. | .ldh .. | .ldw .. | .ldd .. | .ldbs .. | .ldhs .. | .ldws .. | .loadAcquire ..
  | .stb .. | .sth .. | .stw .. | .std .. | .storeRelease .. => true
  | .amoadd .. | .amofadd .. | .amoand .. | .amoor .. | .amoxor .. | .amomin .. | .amomax .. | .amominn ..
  | .amomaxn .. | .amoswp .. | .amocas .. => true
  | .fence .. | .br .. | .brl .. | .bz .. | .bnz .. | .jr .. | .jrl .. | .loop .. | .loops .. | .lstr ..
  | .lbrk .. | .waitc .. | .nop | .trap .. => true
  | .lkfetch .. | .lkdedup .. | .lkdedupClear .. | .lkpool .. | .lkhand .. => true
  | _ => false

/-- The LK words, undefined on sequencers (R97). -/
def isLk : Instr → Bool
  | .lkfetch .. | .lkdedup .. | .lkdedupClear .. | .lkpool .. | .lkhand .. => true
  | _ => false

/-- Whether the issuing part's core runs the word at all; an Ochre core has no wc2 and wc3 (R209, R381). -/
def State.setCheck (s : State) (i : Instr) : Option Failed :=
  if s.onOchre then
    andThen (need (ochreRuns i) 0x03 s.wordVal)
      (need (match i with | .waitc c _ _ => c.toNat < 2 | _ => true) 0x04 s.wordVal)
  else need (!isLk i) 0x03 s.wordVal

/-- Bytes of the local store a row takes, and its alignment, for LKPOOL (R210). -/
def poolWidth (f : Nat) : Nat := fmtWidth f / 8
def poolDst (f : Nat) : Nat := if f = 1 || f = 2 || f = 3 then 1 else 6

/-- The checks of the LK words (R381). -/
def lkfetchCheck (dst len : Nat) : Option Failed :=
  andThen (need (dst % 16 = 0) 0x40 (BitVec.ofNat 64 dst)) (need (dst + len ≤ 65536) 0x21 (BitVec.ofNat 64 dst))

def lkpoolCheck (dst src n f : Nat) : Option Failed :=
  andThen (need (1 ≤ n && n ≤ 4096) 0x21 (BitVec.ofNat 64 n))
    (andThen (need (dst + 4 * n ≤ 65536 && src + poolWidth f * n ≤ 65536) 0x21 (BitVec.ofNat 64 dst))
      (need (dst % 4 = 0 && src % poolWidth f = 0) 0x40 (BitVec.ofNat 64 dst)))

def lkhandCheck (src n : Nat) : Option Failed :=
  need (1 ≤ n && n ≤ 65536 && src + n ≤ 65536) 0x21 (BitVec.ofNat 64 src)

/-! ### Tile slots at issue (R187, R373): active lanes only, lowest engine first -/

/-- A check made in each active lane, the failure naming its engine. -/
def State.laneCheck (s : State) (g : Nat → Engine → Option Failed) : Option Failed :=
  firstFail s.activeLanes (fun e => (g e (s.tileCtx.engine e)).map (fun f => { f with eng := e }))

/-- Row address of a row access: 64 bits, read signed (R167). -/
def rowAddr (s : State) (x : Engine) (f : Slot) (i : Nat) : Int :=
  (x.scalar (f.srca.toNat % 16) + (s.lit f.lit.toNat).signExtend 64 + BitVec.ofNat 64 i * x.scalar (f.srcb.toNat % 16)).toInt

/-- Members of a cluster group that have not retired: the contexts of a core position holding one, a draining one too
(R55, R254, R255). -/
def State.groupMember (s : State) (c : CtxRef) (pos rank : Nat) : Option CtxRef :=
  let p := (s.ctx c).prog
  let m := if (s.ctx c).lrec.gsize = 1 then (if rank = 0 then some 0 else none) else some (4 * rank + pos)
  match m with
  | none => none
  | some m =>
    let core := c.core / 8 / 2 * 16 + c.core % 8 / 2 * 2 + pos / 2 * 8 + pos % 2
    ((List.range 8).map (fun x => (⟨c.die, core, x⟩ : CtxRef))).find? fun r =>
      let q := s.ctx r
      q.st != .empty && q.prog.part = p.part && q.prog.seq = p.seq && q.prog.bin = p.bin
        && q.prog.group = p.group && q.prog.mem = m


/-- Core at a position of the cluster a core lies in. -/
def coreAt (core pos : Nat) : Nat := core / 8 / 2 * 16 + core % 8 / 2 * 2 + pos / 2 * 8 + pos % 2

/-- Members a position holds (R254). -/
def State.membersAt (s : State) (c : CtxRef) (pos : Nat) : Nat :=
  let g := (s.ctx c).lrec.gsize
  if g ≤ 1 then (if pos = corePos c.core then 1 else 0) else if pos < g then (g - pos + 3) / 4 else 0

/-- Where bytes of a window address lie: the core and the scratchpad byte of that core's engine, when every one of
them lies in the allocation of a member that has not retired (R255). -/
def State.windowAt (s : State) (c : CtxRef) (va len : Nat) : Option (Nat × Nat × Nat) :=
  let pos := va >>> 22 % 4
  let eng := va >>> 18 % 16
  let off := va % 2 ^ 18
  let a := (s.ctx c).spadSize
  let k := s.membersAt c pos
  if va < 2 ^ 24 && 1 ≤ len && off + len ≤ k * a then
    let ranks := upto (off / a) ((off + len - 1) / a - off / a + 1)
    if ranks.all (fun r => (s.groupMember c pos r).isSome) then
      match s.groupMember c pos (off / a) with
      | some m => some (coreAt c.core pos, eng, (s.ctx m).spadBase + off % a)
      | none => none
    else none
  else none

/-- Whether bytes at a signed offset lie within so many bytes. -/
def within (a : Int) (len size : Nat) : Bool := 0 ≤ a && a + len ≤ size

/-- The check of a scratchpad row access (R167, R255). DEDUCED, log 20. -/
def State.spadCheck (s : State) (f : Slot) : Option Failed :=
  s.laneCheck fun _ x =>
    let (rows, rb) := slotShape x f
    firstFail (List.range rows) fun i =>
      let a := rowAddr s x f i
      let v := BitVec.ofInt 64 a
      let inside := if bitOf f.md 0 then 0 ≤ a && (s.windowAt s.home a.toNat rb).isSome
        else within a rb s.tileCtx.spadSize
      andThen (need inside 0x21 v)
        (need (10 ≤ f.fmt.toNat || a.toNat % (fmtWidth f.fmt.toNat / 8) = 0) 0x40 v)

/-- The check of a global row access: alignment (R169). -/
def State.globalCheck (s : State) (f : Slot) : Option Failed :=
  s.laneCheck fun _ x =>
    firstFail (List.range (slotShape x f).1) fun i =>
      let a := rowAddr s x f i
      need (10 ≤ f.fmt.toNat || a % ((fmtWidth f.fmt.toNat / 8 : Nat) : Int) = 0) 0x40 (BitVec.ofInt 64 a)

/-- Element index of an OSB access at a position (R168). -/
def osbIndex (s : State) (x : Engine) (f : Slot) (k : Nat) : Int :=
  (x.scalar (f.srca.toNat % 16)).toInt + (s.lit f.lit.toNat).toInt + k

/-- The check of LDO and STO: the record, then every index (R168, R377). -/
def State.osbCheck (s : State) (f : Slot) : Option Failed :=
  s.laneCheck fun _ x =>
    let r := x.record (f.srcb.toNat % 8)
    let (rows, rb) := slotShape x f
    let n := rows * rowElems f.fmt.toNat rb
    andThen (need (obValid r s.tileCtx.osbSize) 0x65 (BitVec.ofNat 64 (f.srcb.toNat % 8)))
      (firstFail (List.range n) fun k =>
        let j := osbIndex s x f k
        need (0 ≤ j && j < obCount r) 0x22 (BitVec.ofInt 64 j))

/-- What an index of an indexed operation says (R171). -/
inductive IndexFate where
  | skip
  | outside
  | addr (va : Nat)
  deriving DecidableEq, Repr

/-- The fate of index element k (R171): the sentinel first, then the bound. An address is taken modulo 2^64. DEDUCED, log
122. -/
def indexFate (x : Engine) (cl : Cluster) (f : Slot) (k : Nat) : IndexFate :=
  let p := f.srca.toNat % 16
  let i := (x.tile cl (regNum f.srcb)).toNat >>> (32 * k) % 2 ^ 32
  let base := (x.scalar p).toNat
  let bound := (x.scalar (p + 1)).toNat % 2 ^ 32
  let sent := (x.scalar (p + 1)).toNat >>> 32
  if sent != 0xFFFFFFFF && i = sent then .skip
  else if bound ≤ i then .outside
  else .addr ((base + i * (fmtWidth f.fmt.toNat / 8)) % 2 ^ 64)

/-- Elements of an indexed operation. -/
def indexCount (x : Engine) (f : Slot) : Nat :=
  let (rows, rb) := slotShape x f
  rows * rowElems f.fmt.toNat rb

/-- The check of an indexed operation (R171): the pair number, the element count, the addresses. DEDUCED, log 57. -/
def State.indexCheck (s : State) (f : Slot) : Option Failed :=
  let p := f.srca.toNat % 16
  s.laneCheck fun _ x =>
    let n := indexCount x f
    andThen (need (p % 2 = 0) 0x40 (BitVec.ofNat 64 p))
      (andThen (need (n ≤ 512) 0x20 (BitVec.ofNat 64 n))
        (firstFail (List.range n) fun k =>
          match indexFate x (slotCluster f) f k with
          | .addr va => need (va % (fmtWidth f.fmt.toNat / 8) = 0) 0x40 (BitVec.ofNat 64 va)
          | _ => none))

/-- The derived shape of VTRN: n rows of rows × w / 8 bytes (R166). -/
def trnShape (x : Engine) (f : Slot) : Nat × Nat :=
  let (rows, rb) := slotShape x f
  (rowElems f.fmt.toNat rb, rows * fmtWidth f.fmt.toNat / 8)

/-- Whether a derived shape is legal under R153. -/
def derivedOk (r b : Nat) : Bool := 4 ≤ r && r ≤ 64 && r % 4 = 0 && 32 ≤ b && b ≤ 512 && b % 32 = 0 && r * b ≤ 2048

/-- The check of VTRN (R166). -/
def State.trnCheck (s : State) (f : Slot) : Option Failed :=
  s.laneCheck fun _ x =>
    let (r, b) := trnShape x f
    need (derivedOk r b) 0x20 (BitVec.ofNat 64 (r * 65536 + b))

/-- The check of SETSH (R186). -/
def State.setshCheck (s : State) (f : Slot) : Option Failed :=
  s.laneCheck fun _ x =>
    let v := (srcE s x f).setWidth 8
    need (shapeLegal v) 0x20 (v.setWidth 64)

/-! ### The check of one instruction -/

/-- The issue check of a word or slot of the bundle at work (R362 steps 2 and 3); of an LDCWT in a half the half comes
before its other checks. DESIGN CHOICE, log 117. -/
def State.check (s : State) (i : Instr) : Option Failed :=
  andThen (s.setCheck i) (match i with
  | .ldb .. | .stb .. => none
  | .ldh _ a _ o | .ldhs _ a _ o | .sth _ a _ o => aligned (s.ea a o 2) 2
  | .ldw _ a _ o | .ldws _ a _ o | .stw _ a _ o => aligned (s.ea a o 4) 4
  | .ldd _ a _ o | .std _ a _ o => aligned (s.ea a o 8) 8
  | .loadAcquire _ a _ _ z o => let n := (sizeCode z).1; aligned (s.eaOrdered a o n) n
  | .storeRelease _ a _ _ z o => let n := (sizeCode z).1; aligned (s.eaOrdered a o n) n
  | .amoadd _ a _ _ _ _ z | .amofadd _ a _ _ _ _ z | .amoand _ a _ _ _ _ z | .amoor _ a _ _ _ _ z
  | .amoxor _ a _ _ _ _ z | .amomin _ a _ _ _ _ z | .amomax _ a _ _ _ _ z | .amominn _ a _ _ _ _ z
  | .amomaxn _ a _ _ _ _ z | .amoswp _ a _ _ _ _ z | .amocas _ a _ _ _ _ z =>
    aligned (s.rd a) (if z = 0 then 4 else 8)
  | .buk k _ => s.uniformCheck k true
  | .bunk k _ => s.uniformCheck k false
  | .bdk k _ _ | .bdkLong k _ _ => s.pushCheck k true
  | .bdnk k _ _ | .bdnkLong k _ _ => s.pushCheck k false
  | .setam b l => s.setamCheck (s.opB b l)
  | .loop a t => s.loopCheck (s.target t) ((s.rd a).toNat % 2 ^ 32)
  | .loops a t => s.loopsCheck (s.rd a) (s.target t)
  | .lstr d _ _ => s.lstrCheck d
  | .lbrk _ _ => need (!s.thr.loops.isEmpty) 0x0A 0
  | .bararv _ | .barwt _ | .yield _ _ => s.whole
  | .slotwait _ a _ _ | .slotsig a _ _ => andThen s.whole (s.ringCheck (s.rd a))
  | .csrr _ c => csrCheck c false
  | .csrw _ c => csrCheck c true
  | .csrs _ a c | .csrc _ a c => csrCheck c (a != 0)
  | .rte => s.rteCheck
  | .ldcwt d a => andThen s.whole (s.ldcwtCheck d a)
  | .lkfetch d _ n => lkfetchCheck (s.rd d).toNat (16 * (n.toNat + 1))
  | .lkpool d a b _ f => lkpoolCheck (s.rd d).toNat (s.rd a).toNat (s.rd b).toNat f.toNat
  | .lkhand a b _ => lkhandCheck (s.rd a).toNat (s.rd b).toNat
  | .mset a b n => need (mgOk (s.rd b ++ s.rd a)) 0x60 (n.setWidth 64)
  | .cpyset a b n => need (tlOk (s.rd b ++ s.rd a)) 0x80 (n.setWidth 64)
  | .qres a b _ n => need (obOk (s.rd b ++ s.rd a)) 0x64 (n.setWidth 64)
  | .qcvt _ b c n => need (sfmtOk c.toNat ((s.rd b).toNat >>> 32 % 16)) 0x64 (n.setWidth 64)
  | .qprune _ b n => need (pruneOf (s.rd b)).ok 0x64 (n.setWidth 64)
  | .cpy _ _ g _ => if g = 1 then s.whole else none
  | .cpyy _ _ _ g _ => if g = 1 then s.whole else none
  | .gthrSp a _ | .gthrOb a _ _ => aligned (s.rd a) 64
  | .coll a _ => andThen s.whole (aligned (s.rd a) 64)
  | .turn a _ _ => andThen s.whole (s.turnCheck (s.rd a))
  | .linkst a _ => s.linkstCheck (s.rd a)
  | .nodeset a b n => nodesetCheck (s.rd a) (s.rd b) n
  | .nodeput a b _ n => andThen s.whole (s.nodeputCheck (s.rd a) (s.rd b) n)
  | .launch a _ _ => andThen s.whole (aligned (s.rd a) 64)
  | .vtrn _ f => s.trnCheck f
  | .lds f | .sts f => s.spadCheck f
  | .ldg f | .stg f => s.globalCheck f
  | .ldo f | .sto f => s.osbCheck f
  | .gath f | .scat f | .scadd f | .vatom f => s.indexCheck f
  | .setsh f => s.setshCheck f
  | _ => none)

/-- A step that answers a next state. -/
abbrev Answer := Host.Outcome State Fault Refusal

/-- A meaning of a word or slot: the trap of its failed check, with nothing else done (R346 kind 0), or its effect. A
bundle whose words and slots have all been checked makes no check again (R362). -/
def guarded (i : Instr) (s : State) (effect : State → State) : Answer :=
  match if s.issue.checked then none else s.check i with
  | some f => .next (s.trap0 f.code f.val f.eng)
  | none => .next (effect s)

end Sys2Proof.Machine
end

