-- ==== Sys2Proof/Machine/Scoreboard.lean ====
section
/-!
DEFINITION. The scoreboard of a context (R105, R192): busy accumulators and OSB records, which follow from the
commands that matrix sequencer and Mordant hold for it.
-/
namespace Sys2Proof.Machine

/-- Fields of a matrix geometry record (R193). -/
def mgAbase (v : BitVec 128) : Nat := (v.extractLsb' 0 18).toNat
def mgBbase (v : BitVec 128) : Nat := (v.extractLsb' 18 18).toNat
def mgAstride (v : BitVec 128) : Nat := (v.extractLsb' 36 12).toNat
def mgBstride (v : BitVec 128) : Nat := (v.extractLsb' 48 12).toNat
def mgAfmt (v : BitVec 128) : Nat := (v.extractLsb' 64 4).toNat
def mgBfmt (v : BitVec 128) : Nat := (v.extractLsb' 68 4).toNat
def mgAsrc (v : BitVec 128) : Nat := (v.extractLsb' 72 2).toNat
def mgBsrc (v : BitVec 128) : Nat := (v.extractLsb' 74 2).toNat
def mgAcc (v : BitVec 128) : Nat := (v.extractLsb' 76 3).toNat
def mgRows (v : BitVec 128) : Nat := (v.extractLsb' 79 5).toNat + 1
def mgCols (v : BitVec 128) : Nat := (v.extractLsb' 84 5).toNat + 1
def mgSparse (v : BitVec 128) : Bool := bitOf v 89
def mgSat (v : BitVec 128) : Bool := bitOf v 90
def mgZacc (v : BitVec 128) : Bool := bitOf v 91
def mgAob (v : BitVec 128) : Nat := (v.extractLsb' 92 3).toNat
def mgBob (v : BitVec 128) : Nat := (v.extractLsb' 95 3).toNat
def mgAwcore (v : BitVec 128) : Nat := (v.extractLsb' 98 2).toNat
def mgAweng (v : BitVec 128) : Nat := (v.extractLsb' 100 4).toNat
def mgAwe (v : BitVec 128) : Bool := bitOf v 104
def mgBwcore (v : BitVec 128) : Nat := (v.extractLsb' 105 2).toNat
def mgBweng (v : BitVec 128) : Nat := (v.extractLsb' 107 4).toNat
def mgBwe (v : BitVec 128) : Bool := bitOf v 111
def mgKlast (v : BitVec 128) : Nat := (v.extractLsb' 112 9).toNat

/-- OSB records a matrix record names as sources (R192). -/
def mgObs (v : BitVec 128) : List Nat :=
  (if mgAsrc v = 1 then [mgAob v] else []) ++ (if mgBsrc v = 1 then [mgBob v] else [])

/-- The accumulators and OSB records a queued matrix command keeps busy. -/
def MatrixCmd.accs (m : MatrixCmd) : List Nat := [mgAcc m.mg]
def MatrixCmd.recs (m : MatrixCmd) : List Nat := mgObs m.mg

/-- Those of a queued Mordant command: QCVT.acc also names its accumulator. -/
def MordantCmd.accs (m : MordantCmd) : List Nat :=
  match m.op with
  | .qcvt 2 => [m.sa.toNat % 8]
  | _ => []

/-- Whether an accumulator, or an OSB record, of a context is busy. -/
def State.accBusy (s : State) (c : CtxRef) (a : Nat) : Bool :=
  let k := s.core c.die c.core
  k.matq.any (fun m => m.by_.ctx = c && m.accs.contains a) || k.morq.any (fun m => m.by_.ctx = c && m.accs.contains a)

def State.obBusy (s : State) (c : CtxRef) (o : Nat) : Bool :=
  let k := s.core c.die c.core
  k.matq.any (fun m => m.by_.ctx = c && m.recs.contains o) || k.morq.any (fun m => m.by_.ctx = c && m.ob = o)

/-- SBSTAT (R105). -/
def State.sbstat (s : State) (c : CtxRef) : Word :=
  let acc : Word := maskOf ((List.range 8).filter (s.accBusy c))
  let ob : Word := maskOf ((List.range 8).filter (s.obBusy c))
  acc ||| ob <<< 8

/-- WCSTAT (R104). -/
def State.wcstat (s : State) (p : PartRef) : Word :=
  BitVec.ofNat 64 (s.wcOf p 0 + s.wcOf p 1 * 2 ^ 8 + s.wcOf p 2 * 2 ^ 16 + s.wcOf p 3 * 2 ^ 24)

end Sys2Proof.Machine
end

