-- ==== Sys2Proof/Machine/Joins.lean ====
section
/-!
DEFINITION. Joins, rejoining halves, and the exit of lanes (R43, R44, R51).
-/
namespace Sys2Proof.Machine

/-! ### Joins and empty masks (R43, R44, R51) -/

/-- The first half's arrival is over when both stand at the join: the split entry goes, the spare half's registers are
discarded, its operations and causes count as the primary's, and the primary resumes at JOIN (R48, R51, R272).
DEDUCED, log 19. -/
def State.rejoin (s : State) (c : CtxRef) : State :=
  let x := s.ctx c
  match x.base, x.spare with
  | e :: rest, some t =>
    if x.main.arrived && t.arrived then
      let own (h : Bool) : Word := (if h then x.main.bundles else x.main.issued) - (if h then t.bundles else t.issued)
      let s := (s.unlistPart (.gang c.die c.core c.ctx true)).dropReturns (.gang c.die c.core c.ctx true)
      let s := s.mapIssuers fun b =>
        if b.ctx = c && b.spare then { b with spare := false, gen := 0, at_ := b.at_ + own b.inHandler } else b
      let mine (q : Cause) : Cause := { q with gen := 0, at_ := q.at_ + own q.inHandler }
      let mark : FenceMark := { paths := none, scope := .pkg, before := s.nextId, both := true }
      let m := { x.main with
        am := e.full &&& x.lm, pc := e.join, stack := rest, arrived := false, seen := x.main.seen ++ t.seen
        fences := x.main.fences ++ t.fences.map (fun f => { f with both := true }) ++ [mark]
        atSafe := false }
      let inbox := x.inbox.foldl (fun l e => insertCause s.readyAt (if e.1 then (false, mine e.2) else e) l) []
      let s := (s.setCtx c { x with main := m, spare := none, base := [], helpSpare := 0, inbox := inbox }).freeSpare c
      (t.causes.map mine).foldl (fun s q => if (s.ctx c).st == .draining then s
        else s.holdCause (.gang c.die c.core c.ctx false) q) s
    else s
  | _, _ => s

/-- A half arrives at its join: its results land at once and it stops issuing (R51, R95). -/
def State.arrive (s : State) (p : PartRef) : State :=
  match p with
  | .gang d c x _ =>
    let t := s.thread p
    let s := s.landAll ⟨d, c, x⟩ t.pend
    (s.setThread p { s.thread p with pend := [], arrived := true, la := [] }).rejoin ⟨d, c, x⟩
  | .ochre _ _ => s

/-- The entry a part's join is compared with: the top of its own chain above the depth its handler found, or the split
entry below an empty chain (R43, R51, R350). -/
def State.joinTop (s : State) (p : PartRef) : Option StackEntry :=
  match p with
  | .gang d c x _ =>
    let t := s.thread p
    match t.handler with
    | some h => if h.stackDepth < t.stack.length then t.stack.head? else none
    | none => match t.stack with
      | e :: _ => some e
      | [] => if (s.ctx ⟨d, c, x⟩).spare.isSome then (s.ctx ⟨d, c, x⟩).base.head? else none
  | .ochre _ _ => none

/-- The joins a part has reached, by its address or by an empty mask (R43, R44). -/
def State.settleJoins (s : State) (p : PartRef) : Nat → State
  | 0 => s
  | n + 1 =>
    match p with
    | .ochre _ _ => s
    | .gang d c x _ =>
      let t := s.thread p
      let lm := (s.ctx ⟨d, c, x⟩).lm
      match s.joinTop p with
      | none => s
      | some e =>
        if t.arrived || t.late.isSome || (t.am != 0 && t.pc != e.join) then s
        else if e.split then
          let s := s.arrive p
          if (s.ctx ⟨d, c, x⟩).spare.isNone then s.settleJoins p.primary n else s
        else if !e.ph && e.pend &&& lm != 0 then
          (s.setThread p { t with am := e.pend &&& lm, pc := e.resume, stack := { e with ph := true } :: t.stack.tail }).settleJoins
            p n
        else
          let am := e.full &&& lm
          (s.setThread p { t with am := am, stack := t.stack.tail, pc := if am = 0 then t.pc else e.join }).settleJoins p n

/-- The lanes of an END bundle's mask leave LM and every stack entry, and the part's mask is empty (R44). -/
def State.exitLanes (s : State) (p : PartRef) (am : BitVec 16) : State :=
  match p with
  | .ochre _ _ => s
  | .gang d c x _ =>
    let k := s.ctx ⟨d, c, x⟩
    let cut (l : List StackEntry) : List StackEntry :=
      l.map (fun e => { e with full := e.full &&& ~~~am, pend := e.pend &&& ~~~am })
    let thr (t : Thread) : Thread := { t with stack := cut t.stack }
    let s := s.setCtx ⟨d, c, x⟩ { k with lm := k.lm &&& ~~~am, main := thr k.main, spare := k.spare.map thr, base := cut k.base }
    s.setThread p { s.thread p with am := 0 }

/-- An empty mask settled: joins reached, else the remaining lanes at the next bundle, else fetch halts, and the results
still exposed are written (R44, R92). After a rejoin it is the primary's. Where the spare's END brings the rejoin about
with no lane of FULL left, the primary goes on at JOIN; an empty mask that a handler's own depth leaves without an entry
stays empty until RTE. DESIGN CHOICE, log 98. -/
def State.settleEmpty (s : State) (p : PartRef) (next : Word) : State :=
  match p with
  | .ochre _ _ => s
  | .gang d c x _ =>
    if (s.thread p).am != 0 then s
    else
      let s := s.settleJoins p 80
      let k := s.ctx ⟨d, c, x⟩
      let q := if k.spare.isSome then p else p.primary
      let t := s.thread q
      if k.st == .draining || t.arrived || t.am != 0 || (s.joinTop q).isSome then s
      else if k.lm = 0 then (s.landAll ⟨d, c, x⟩ t.pend).drain ⟨d, c, x⟩
      else if t.handler.isSome then s
      else s.setThread q { t with am := k.lm, pc := if q = p then next else t.pc }

/-! ### The END bundle (R44, R365) -/

/-- Whether a bundle that a part has issued is through with its words and slots: it waits for nothing (R346). -/
def Thread.through (t : Thread) : Bool := t.waits.isEmpty && t.late.isNone

/-- An END bundle's lanes exit, but only once a BARWT or WAITC of the bundle has ended its wait (R44).
DEDUCED, log 11. -/
def State.endBundle (s : State) (p : PartRef) (am : BitVec 16) : State :=
  if (s.thread p).through then s.exitLanes p am else s.setThread p { s.thread p with last := some (.exit am) }

/-- What a bundle still owes, made once its part waits for nothing any more: the exit of an END bundle, a TRAP, an RTE
(R44, R151, R346, R352). -/
def State.leave (s : State) (p : PartRef) : State :=
  let t := s.thread p
  if !t.through then s
  else
    let u := s.setThread p { t with last := none }
    match t.last with
    | none => s
    | some (.exit am) => (u.exitLanes p am).settleEmpty p t.pc
    | some (.trap q next) => u.trapAt p q next
    | some (.rte addr) => ({ u with issue := { u.issue with part := p, addr := addr } }).doRte p

end Sys2Proof.Machine
end

