-- ==== Sys2Proof/Machine/LoadStore.lean ====
section
/-!
DEFINITION. Scalar loads, stores, atomics and fences (R117 to R125).
-/
namespace Sys2Proof.Machine

/-- A scalar load begun: wc0, LA, acquire (R103, R104, R117 to R120). -/
def State.startLoad (s : State) (rd : BitVec 5) (va : Word) (n : Nat) (sgn : Bool) (la : BitVec 4)
    (acq : Option Scope) : State :=
  let (id, s) := s.begin s.scalarPath (.loadReg rd.toNat n sgn) [Piece.mk' va.toNat n []] acq none 0
  s.look la.toNat (.access id)

/-- A scalar store begun: wc1, LA, release (R103, R104, R117 to R120). -/
def State.startStore (s : State) (va : Word) (n : Nat) (v : Word) (la : BitVec 4) (rel : Option Scope) : State :=
  let (id, s) := s.begin s.scalarPath .store [Piece.mk' va.toNat n (toBytes n v.toNat)] none rel 1
  s.look la.toNat (.access id)

/-- LDB (R117). -/
def execLdb (d a : BitVec 5) (la : BitVec 4) (o : BitVec 12) (s : State) : Answer :=
  guarded (.ldb d a la o) s fun s => s.startLoad d (s.ea a o 1) 1 false la none

/-- LDH (R117). -/
def execLdh (d a : BitVec 5) (la : BitVec 4) (o : BitVec 12) (s : State) : Answer :=
  guarded (.ldh d a la o) s fun s => s.startLoad d (s.ea a o 2) 2 false la none

/-- LDW (R117). -/
def execLdw (d a : BitVec 5) (la : BitVec 4) (o : BitVec 12) (s : State) : Answer :=
  guarded (.ldw d a la o) s fun s => s.startLoad d (s.ea a o 4) 4 false la none

/-- LDD (R117). -/
def execLdd (d a : BitVec 5) (la : BitVec 4) (o : BitVec 12) (s : State) : Answer :=
  guarded (.ldd d a la o) s fun s => s.startLoad d (s.ea a o 8) 8 false la none

/-- LDBS (R117). -/
def execLdbs (d a : BitVec 5) (la : BitVec 4) (o : BitVec 12) (s : State) : Answer :=
  guarded (.ldbs d a la o) s fun s => s.startLoad d (s.ea a o 1) 1 true la none

/-- LDHS (R117). -/
def execLdhs (d a : BitVec 5) (la : BitVec 4) (o : BitVec 12) (s : State) : Answer :=
  guarded (.ldhs d a la o) s fun s => s.startLoad d (s.ea a o 2) 2 true la none

/-- LDWS (R117). -/
def execLdws (d a : BitVec 5) (la : BitVec 4) (o : BitVec 12) (s : State) : Answer :=
  guarded (.ldws d a la o) s fun s => s.startLoad d (s.ea a o 4) 4 true la none

/-- Loads with .acq (R119). -/
def execLoadAcquire (d a : BitVec 5) (la : BitVec 4) (sc sz : BitVec 3) (o : BitVec 6) (s : State) : Answer :=
  guarded (.loadAcquire d a la sc sz o) s fun s =>
    let z := sizeCode sz
    s.startLoad d (s.eaOrdered a o z.1) z.1 z.2 la (some (scopeOf sc))

/-- STB (R117): the field of rd names the source. -/
def execStb (d a : BitVec 5) (la : BitVec 4) (o : BitVec 12) (s : State) : Answer :=
  guarded (.stb d a la o) s fun s => s.startStore (s.ea a o 1) 1 (s.rd d) la none

/-- STH (R117): the field of rd names the source. -/
def execSth (d a : BitVec 5) (la : BitVec 4) (o : BitVec 12) (s : State) : Answer :=
  guarded (.sth d a la o) s fun s => s.startStore (s.ea a o 2) 2 (s.rd d) la none

/-- STW (R117): the field of rd names the source. -/
def execStw (d a : BitVec 5) (la : BitVec 4) (o : BitVec 12) (s : State) : Answer :=
  guarded (.stw d a la o) s fun s => s.startStore (s.ea a o 4) 4 (s.rd d) la none

/-- STD (R117): the field of rd names the source. -/
def execStd (d a : BitVec 5) (la : BitVec 4) (o : BitVec 12) (s : State) : Answer :=
  guarded (.std d a la o) s fun s => s.startStore (s.ea a o 8) 8 (s.rd d) la none

/-- Stores with .rel (R119). -/
def execStoreRelease (d a : BitVec 5) (la : BitVec 4) (sc sz : BitVec 3) (o : BitVec 6) (s : State) : Answer :=
  guarded (.storeRelease d a la sc sz o) s fun s =>
    let z := sizeCode sz
    s.startStore (s.eaOrdered a o z.1) z.1 (s.rd d) la (some (scopeOf sc))

/-- A scalar atomic begun (R121, R122): operation number as in the major opcodes, the operand in the piece, the compare
value beside it; with rd = s0 it counts in wc1, else in wc0. -/
def State.startAtomic (s : State) (op : Nat) (d a b : BitVec 5) (la : BitVec 4) (sc : BitVec 3) (o : BitVec 2)
    (z : BitVec 1) : State :=
  let n := if z = 0 then 4 else 8
  let (id, s) := s.begin s.scalarPath (.amo op n d.toNat (s.rd d))
    [Piece.mk' (s.rd a).toNat n (toBytes n (s.rd b).toNat)]
    (if bitOf o 0 then some (scopeOf sc) else none) (if bitOf o 1 then some (scopeOf sc) else none)
    (if d = 0 then 1 else 0)
  s.look la.toNat (.access id)

/-- AMOADD (R121). -/
def execAmoadd (d a b : BitVec 5) (la : BitVec 4) (sc : BitVec 3) (o : BitVec 2) (z : BitVec 1) (s : State) : Answer :=
  guarded (.amoadd d a b la sc o z) s fun s => s.startAtomic 0 d a b la sc o z

/-- AMOFADD (R121). -/
def execAmofadd (d a b : BitVec 5) (la : BitVec 4) (sc : BitVec 3) (o : BitVec 2) (z : BitVec 1) (s : State) : Answer :=
  guarded (.amofadd d a b la sc o z) s fun s => s.startAtomic 1 d a b la sc o z

/-- AMOAND (R121). -/
def execAmoand (d a b : BitVec 5) (la : BitVec 4) (sc : BitVec 3) (o : BitVec 2) (z : BitVec 1) (s : State) : Answer :=
  guarded (.amoand d a b la sc o z) s fun s => s.startAtomic 2 d a b la sc o z

/-- AMOOR (R121). -/
def execAmoor (d a b : BitVec 5) (la : BitVec 4) (sc : BitVec 3) (o : BitVec 2) (z : BitVec 1) (s : State) : Answer :=
  guarded (.amoor d a b la sc o z) s fun s => s.startAtomic 3 d a b la sc o z

/-- AMOXOR (R121). -/
def execAmoxor (d a b : BitVec 5) (la : BitVec 4) (sc : BitVec 3) (o : BitVec 2) (z : BitVec 1) (s : State) : Answer :=
  guarded (.amoxor d a b la sc o z) s fun s => s.startAtomic 4 d a b la sc o z

/-- AMOMIN (R121). -/
def execAmomin (d a b : BitVec 5) (la : BitVec 4) (sc : BitVec 3) (o : BitVec 2) (z : BitVec 1) (s : State) : Answer :=
  guarded (.amomin d a b la sc o z) s fun s => s.startAtomic 5 d a b la sc o z

/-- AMOMAX (R121). -/
def execAmomax (d a b : BitVec 5) (la : BitVec 4) (sc : BitVec 3) (o : BitVec 2) (z : BitVec 1) (s : State) : Answer :=
  guarded (.amomax d a b la sc o z) s fun s => s.startAtomic 6 d a b la sc o z

/-- AMOMINN (R121). -/
def execAmominn (d a b : BitVec 5) (la : BitVec 4) (sc : BitVec 3) (o : BitVec 2) (z : BitVec 1) (s : State) : Answer :=
  guarded (.amominn d a b la sc o z) s fun s => s.startAtomic 7 d a b la sc o z

/-- AMOMAXN (R121). -/
def execAmomaxn (d a b : BitVec 5) (la : BitVec 4) (sc : BitVec 3) (o : BitVec 2) (z : BitVec 1) (s : State) : Answer :=
  guarded (.amomaxn d a b la sc o z) s fun s => s.startAtomic 8 d a b la sc o z

/-- AMOSWP (R121). -/
def execAmoswp (d a b : BitVec 5) (la : BitVec 4) (sc : BitVec 3) (o : BitVec 2) (z : BitVec 1) (s : State) : Answer :=
  guarded (.amoswp d a b la sc o z) s fun s => s.startAtomic 9 d a b la sc o z

/-- AMOCAS (R121). -/
def execAmocas (d a b : BitVec 5) (la : BitVec 4) (sc : BitVec 3) (o : BitVec 2) (z : BitVec 1) (s : State) : Answer :=
  guarded (.amocas d a b la sc o z) s fun s => s.startAtomic 10 d a b la sc o z

/-- A fence put in force at the place of its word (R123 to R125). DEDUCED, log 42. -/
def State.addFence (s : State) (paths : Option (Path × Path)) (sc : BitVec 3) : State :=
  s.setThr { s.thr with fences := s.thr.fences ++
    [{ paths := paths, scope := scopeOf sc, before := s.nextId, both := false }] }

/-- FENCE (R123). -/
def execFence (sc : BitVec 3) (s : State) : Answer := guarded (.fence sc) s fun s => s.addFence none sc

/-- FENCEX (R124). -/
def execFencex (y x : BitVec 4) (sc : BitVec 3) (s : State) : Answer :=
  guarded (.fencex y x sc) s fun s => s.addFence (some (pathOf x, pathOf y)) sc

end Sys2Proof.Machine
end

