-- ==== Sys2Proof/Machine/Loop.lean ====
section
/-!
DEFINITION. The loop unit (R131 to R137).
-/
namespace Sys2Proof.Machine

/-- Words of a bundle by its header: header, scalar words, literals (R79). -/
def bundleWords (w : BitVec 32) : Nat := (decodeHeader w).len

/-- LOOP with n trips (R132): a level is pushed, or with no trip the body is skipped; the header at the target tells
where its bundle ends, and the bundle waits while it is not there. -/
def State.enterLoop (s : State) (target : Word) (n : Nat) : State :=
  if n = 0 then
    match s.fetchWord s.issue.part target.toNat with
    | (.word w, s) => s.jump (target + BitVec.ofNat 64 (4 * bundleWords w))
    | (_, s) => s
  else
    let t := s.thr
    let level : LoopLevel := { start := s.nextPc, last := target, rem := n, iter := 0, bind := [] }
    { s.setThr { t with loops := level :: t.loops } with issue := { s.issue with taken := true, pushed := true } }

/-- LOOP (R132): bits [63:32] of the count are ignored. -/
def execLoop (a : BitVec 5) (t : BitVec 21) (s : State) : Answer :=
  guarded (.loop a t) s fun s => s.enterLoop (s.target t) ((s.rd a).toNat % 2 ^ 32)

/-- The state after the row pointers of LOOPS are read: the pointer advances and the loop begins (R133). -/
def State.loopsWith (s : State) (a : BitVec 5) (target : Word) (l : List Byte) : State :=
  (s.wr a (s.rd a + 4)).enterLoop target (ofBytes (l.drop 4) - ofBytes (l.take 4))

/-- LOOPS (R133): it waits while its row pointers cannot be read; a read that fails raises its cause as kind 3 with
nothing performed. -/
def execLoops (a : BitVec 5) (t : BitVec 21) (s : State) : Answer :=
  guarded (.loops a t) s fun s =>
    match s.rowPointers (s.rd a) with
    | (.bytes l, s) => s.loopsWith a (s.target t) l
    | (.wait, s) => s
    | (.fail code va, s) =>
      s.enterTrap s.issue.part (s.cause code 3 (BitVec.ofNat 64 va) 0) s.issue.addr

/-- A binding added to a level: a bound register's stride is replaced (R136). -/
def LoopLevel.bindReg (v : LoopLevel) (r : Nat) (x : Word) : LoopLevel :=
  { v with bind := if v.bind.any (fun p => p.1 = r) then v.bind.map (fun p => if p.1 = r then (r, x) else p)
                   else v.bind ++ [(r, x)] }

/-- Whether the bundle holds a LOOP or LOOPS that pushed no level, whose bindings are discarded (R136). -/
def State.zeroTrip (s : State) : Bool :=
  s.issue.words.any (fun i => match i with | .loop _ _ | .loops _ _ => true | _ => false) && !s.issue.pushed

/-- LSTR (R136). -/
def execLstr (d b : BitVec 5) (l : BitVec 3) (s : State) : Answer :=
  guarded (.lstr d b l) s fun s =>
    if s.zeroTrip then s
    else match s.thr.loops with
      | v :: r => s.setThr { s.thr with loops := v.bindReg d.toNat (s.opB b l) :: r }
      | [] => s

/-- LBRK (R137): the top level goes, its bindings without a stride; a literal displaces the bundle. -/
def execLbrk (b : BitVec 5) (l : BitVec 3) (s : State) : Answer :=
  guarded (.lbrk b l) s fun s =>
    let target := if l = 0 then s.rd b else s.litAddr l.toNat
    (s.setThr { s.thr with loops := s.thr.loops.tail }).jump target

/-- The strides of a level added after the bundle's own writes (R134). -/
def Thread.stride (t : Thread) (v : LoopLevel) : Thread :=
  v.bind.foldl (fun t p => t.setReg p.1 (t.reg p.1 + p.2)) t

/-- End-of-iteration processing at the bundle at addr, over at most as many levels as are given and above the depth
a handler entered with (R134, R350). -/
def Thread.endIteration (addr : Word) (floor : Nat) : Nat → Thread → Thread
  | 0, t => t
  | n + 1, t =>
    match t.loops with
    | v :: r =>
      if floor < t.loops.length && v.last = addr then
        let t := t.stride v
        if 1 < v.rem then
          { t with loops := { v with iter := v.iter + 1, rem := v.rem - 1 } :: r, pc := v.start }
        else Thread.endIteration addr floor n { t with loops := r }
      else t
    | [] => t

end Sys2Proof.Machine
end

