-- ==== Sys2Proof/Machine/Sync.lean ====
section
/-!
DEFINITION. Barriers, waits, continuations and rings (R138 to R145), and the end of a wait (R39, R354).
-/
namespace Sys2Proof.Machine

/-! ### Pending causes and the end of a wait -/

/-- Whether a part may take a cause now: it is in no handler, not frozen and its latest bundle is through
(R346, R354, R356). -/
def Thread.takes (t : Thread) : Bool := t.handler.isNone && !t.frozen && t.through

/-- The oldest pending cause of a part is taken, with TRAPPC at its next bundle (R346, R354); after a SLOTWAIT's wait that
is the bundle after its own. -/
def State.takePending (s : State) (p : PartRef) : State :=
  let t := s.thread p
  match t.causes with
  | q :: r => if t.takes && !t.due then (s.setThread p { t with causes := r }).enterTrap p q t.pc else s
  | [] => s

/-- Whether a part can issue no bundle because of a wait or because it stands at its join (R39). -/
def Thread.held (t : Thread) : Bool := t.arrived || !t.waits.isEmpty

/-- Whether a context must be BLOCKED: each part is held, or a page-fault answer is awaited (R39, R357). -/
def State.mustBlock (s : State) (c : CtxRef) : Bool :=
  let x := s.ctx c
  s.pageWait c || (x.main.held && (match x.spare with | some t => t.held | none => true))

/-- A context that must be blocked enters BLOCKED. -/
def State.settleBlock (s : State) (c : CtxRef) : State := if s.mustBlock c then s.makeBlocked c else s

/-- A BLOCKED context that waits for nothing any more becomes READY or RESIDENT with a stamp, and its pending causes
are taken; an END bundle whose wait is over lets its lanes exit first (R39, R44, R291, R354). -/
def State.unblock (s : State) (c : CtxRef) (stamp : Nat) : State :=
  let s := (s.leave (.gang c.die c.core c.ctx false)).leave (.gang c.die c.core c.ctx true)
  let x := s.ctx c
  if x.st == .blocked && x.save == .none && !s.mustBlock c then
    let s := s.makeReady c stamp
    let s := s.takePending (.gang c.die c.core c.ctx false)
    if (s.ctx c).spare.isSome then s.takePending (.gang c.die c.core c.ctx true) else s
  else s

/-! ### Barriers (R139, R140) -/

/-- Whether an arrival counts: every access and command of the gang issued before it, and every store of others that it
has read, is performed at die scope (R140, R270). -/
def State.arrivalDone (s : State) (c : CtxRef) (r : Arrival) : Bool :=
  s.accs.all (fun a => a.by_.ctx != c || r.before ≤ a.id || a.performedAt .die)
    && [Path.copy, .matrix, .gather, .coll, .quant].all (fun y => !anyBefore c r.before (s.unitIds c y))
    && !s.windowPending (.gang c.die c.core c.ctx false) true r.before && s.ctxSeenDone c

/-- Arrivals of a context at a barrier that count for others. -/
def State.countedAt (s : State) (c : CtxRef) (n : Nat) : Nat :=
  ngetD (s.ctx c).counted n 0 + ((s.ctx c).arrivals.filter (fun r => r.bar = n && s.arrivalDone c r)).length

/-- The arrivals that count leave the list of those that do not yet. -/
def State.settleArrivals (s : State) (c : CtxRef) : State :=
  let x := s.ctx c
  let done := x.arrivals.filter (s.arrivalDone c)
  s.setCtx c { x with
    counted := done.foldl (fun m r => nset m r.bar (ngetD m r.bar 0 + 1)) x.counted
    arrivals := x.arrivals.filter (fun r => !s.arrivalDone c r) }

/-- Whether a program belongs to another's cluster group, as another member. -/
def ProgId.mate (p q : ProgId) : Bool :=
  p.part = q.part && p.seq = q.seq && p.bin = q.bin && p.group = q.group && p.mem != q.mem

/-- Whether a member of a program's group waits to be placed again, released from STARTING: it has not arrived anywhere (R53,
R139, R287). -/
def State.mateBack (s : State) (p : ProgId) : Bool :=
  (s.part p.part).launches.any fun l => l.seq = p.seq
    && l.back.any (fun n => n / max l.lrec.gsize 1 = p.group && n != p.prog)

/-- Whether every other member of the group has arrived as often as a context at a barrier (R139): a retired member
counts as arrived; a saved one keeps its counts, and one that waits to be placed again has none. -/
def State.barrierMet (s : State) (c : CtxRef) (n : Nat) : Bool :=
  let x := s.ctx c
  let a := ngetD x.arrive n 0
  let mates := ((List.range 384).map (fun i => (⟨c.die, i / 8, i % 8⟩ : CtxRef))).filter
    (fun r => (s.ctx r).st != .empty && (s.ctx r).prog.mate x.prog)
  let saved := (s.part x.prog.part).savedProgs.filter (fun v => v.prog.mate x.prog)
  a = 0 || (!s.mateBack x.prog && mates.all (fun r => a ≤ s.countedAt r n)
    && saved.all (fun v => a ≤ s.countedAt (savedPlace x.prog.part v.slot) n))

/-- BARARV (R139, R140). -/
def execBararv (n : BitVec 5) (s : State) : Answer :=
  guarded (.bararv n) s fun s =>
    let s := s.settleArrivals s.home
    let x := s.ctx s.home
    s.setCtx s.home { x with
      arrive := nset x.arrive n.toNat (ngetD x.arrive n.toNat 0 + 1)
      arrivals := x.arrivals ++ [{ bar := n.toNat, before := s.nextId }] }

/-- A wait of the bundle's part added: it stands until its event ends it. -/
def State.addWait (s : State) (w : Wait) : State := s.setThr { s.thr with waits := s.thr.waits ++ [w] }

/-- BARWT (R139): it does not wait where the others have arrived. -/
def execBarwt (n : BitVec 5) (s : State) : Answer :=
  guarded (.barwt n) s fun s => if s.barrierMet s.home n.toNat then s else s.addWait (.barwt n.toNat)

/-! ### WAITC (R141) -/

/-- WAITC (R141). -/
def execWaitc (c b : BitVec 5) (l : BitVec 3) (s : State) : Answer :=
  guarded (.waitc c b l) s fun s =>
    let lim := min (s.opB b l).toNat 255
    if s.wcOf s.issue.part c.toNat ≤ lim then s else s.addWait (.waitc c.toNat lim)

/-! ### YIELD and continuations (R142, R206) -/

/-- YIELD (R142): it always blocks; with no count its time is up at once. -/
def execYield (b : BitVec 5) (l : BitVec 3) (s : State) : Answer :=
  guarded (.yield b l) s fun s =>
    s.addWait (.yield (s.time + 80 * ((s.opB b l).toNat % 2 ^ 32)) s.issue.addr)

/-- The deadline and bundle of a YIELD among waits. -/
def yieldOf : List Wait → Option (Nat × Word)
  | [] => none
  | .yield t a :: _ => some (t, a)
  | _ :: r => yieldOf r

/-- Waits without YIELD. -/
def dropYield (l : List Wait) : List Wait := l.filter (fun w => match w with | .yield _ _ => false | _ => true)

/-- The part's floor for end-of-iteration processing: levels its handler found stay as they are (R350). -/
def Thread.floor (t : Thread) : Nat := match t.handler with | some h => h.loopDepth | none => 0

/-- A control transfer whose target is misaligned: the bundle is complete, and the trap takes the target (R128). -/
def State.checkTarget (s : State) (p : PartRef) (from_ : Word) : State :=
  let t := s.thread p
  if t.pc.toNat % 4 = 0 then s
  else s.trapAt p { t.cause s 0x06 1 from_ with pc := from_ } t.pc

/-- A YIELDing context takes its oldest posting (R142): no end-of-iteration processing (R134). -/
def State.takeContinuation (s : State) (c : CtxRef) : State :=
  let x := s.ctx c
  match yieldOf x.main.waits, x.posts with
  | some (_, a), q :: r =>
    let s := s.setCtx c { x with posts := r, cpyy := x.cpyy - 1,
                                 main := { x.main with pc := q, waits := dropYield x.main.waits } }
    s.checkTarget (.gang c.die c.core c.ctx false) a
  | _, _ => s

/-- A YIELD whose time is up and which finds no posting goes on at the next bundle, after its bundle's
end-of-iteration processing (R134, R142). -/
def State.timeOut (s : State) (c : CtxRef) : State :=
  let x := s.ctx c
  match yieldOf x.main.waits with
  | some (t, a) =>
    if x.posts.isEmpty && t ≤ s.time then
      let m := { x.main with waits := dropYield x.main.waits }
      s.setCtx c { x with main := Thread.endIteration a m.floor 6 m }
    else s
  | none => s

/-- A wait that has ended by its own event, the context goes on (R39). -/
def State.resumeNow (s : State) (c : CtxRef) : State := s.unblock c s.cycle

/-- YIELD_TIMEOUT (R142). -/
def execYieldTimeout (die core ctx : Nat) (s : State) : Answer :=
  let c : CtxRef := ⟨die, core, ctx⟩
  if c.ok && (s.ctx c).st == .blocked then .next ((s.timeOut c).resumeNow c) else .next s

/-- CONTINUATION_TAKE (R142). -/
def execContinuationTake (die core ctx : Nat) (s : State) : Answer :=
  let c : CtxRef := ⟨die, core, ctx⟩
  if c.ok && (s.ctx c).st == .blocked then .next ((s.takeContinuation c).resumeNow c) else .next s

/-! ### Rings (R143 to R145) -/

/-- The bundle of a SLOTWAIT that finds no slot stays at the part's PC and waits (R144, R152). -/
def State.blockSlot (s : State) (desc : Word) (prod : Bool) (sc : Scope) : State :=
  s.setThr { s.thr with pc := s.issue.addr, waits := s.thr.waits ++ [.slotwait desc prod sc] }

/-- SLOTWAIT (R144): it answers at once when its slot is there, else its bundle blocks; while its descriptor cannot be
read the bundle waits, and a read that fails raises its cause as kind 3 with nothing performed. -/
def execSlotwait (d a : BitVec 5) (sc : BitVec 3) (side : BitVec 1) (s : State) : Answer :=
  guarded (.slotwait d a sc side) s fun s =>
    match s.reading (s.rd a).toNat 64 (some (scopeOf sc)) with
    | (.bytes l, s) =>
      match (ringOf l).slot (side == 1) with
      | some v => s.wr d v
      | none => s.blockSlot (s.rd a) (side == 1) (scopeOf sc)
    | (.wait, s) => s
    | (.fail code va, s) => s.enterTrap s.issue.part (s.cause code 3 (BitVec.ofNat 64 va) 0) s.issue.addr

/-- SLOTSIG (R145): an atomic add of 1 at the descriptor's home, with release; it counts as an atomic without a
return. DEDUCED, log 23. -/
def execSlotsig (a : BitVec 5) (sc : BitVec 3) (side : BitVec 1) (s : State) : Answer :=
  guarded (.slotsig a sc side) s fun s =>
    let at_ := (s.rd a).toNat + (if side = 1 then 0 else 8)
    (s.begin s.scalarPath (.amo 0 8 0 0) [Piece.mk' at_ 8 (toBytes 8 1)] none (some (scopeOf sc)) 1).2

/-- The SLOTWAIT among waits. -/
def slotwaitOf : List Wait → Option (Word × Bool × Scope)
  | [] => none
  | .slotwait d p sc :: _ => some (d, p, sc)
  | _ :: r => slotwaitOf r

/-- Waits without SLOTWAIT. -/
def dropSlotwait (l : List Wait) : List Wait := l.filter (fun w => match w with | .slotwait .. => false | _ => true)

/-- A blocked SLOTWAIT looks at its descriptor again (R144): a slot, a descriptor that breaks its rules or a read that
fails ends the wait, and the bundle is due. -/
def State.recheck (s : State) (c : CtxRef) : State :=
  let p : PartRef := .gang c.die c.core c.ctx false
  match slotwaitOf (s.ctx c).main.waits with
  | none => s
  | some (desc, prod, sc) =>
    let stop (s : State) : State :=
      let t := s.thread p
      s.setThread p { t with waits := dropSlotwait t.waits, due := true }
    match s.peekWith p desc.toNat 64 (some sc) with
    | (.bytes l, s) =>
      let r := ringOf l
      if r.aligned && r.ok && (r.slot prod).isNone then s else stop s
    | (.wait, s) => s
    | (.fail _ _, s) => stop s

/-- SLOTWAIT_RECHECK (R144). -/
def execSlotwaitRecheck (die core ctx : Nat) (s : State) : Answer :=
  let c : CtxRef := ⟨die, core, ctx⟩
  if c.ok && (s.ctx c).st == .blocked then .next ((s.recheck c).resumeNow c) else .next s

/-! ### CONTEXT_WAKE and PREDICTION_WAKE (R39, R240) -/

/-- Whether a wait's own event has come; YIELD and SLOTWAIT end by their own steps. -/
def State.waitOver (s : State) (p : PartRef) : Wait → Bool
  | .waitc n lim => s.wcOf p n ≤ lim
  | .barwt n => match p.ctx? with
    | some c => s.barrierMet c n
    | none => true
  | .predict at_ acc => at_ ≤ s.cycle || (match p.ctx? with
    | some c => !s.accBusy c acc
    | none => true)
  | .yield _ _ => false
  | .slotwait .. => false

/-- The stamp of a part that wakes: the predicted cycle where it slept until one, the latest of those that have come
(R291). -/
def State.wakeStamp (s : State) (p : PartRef) : Nat :=
  ((s.thread p).waits.foldl (fun n w => match w with
    | .predict at_ _ => if at_ ≤ s.cycle then some (max at_ (n.getD 0)) else n
    | _ => n) none).getD s.cycle

/-- The waits of a part that are over go. -/
def State.endWaits (s : State) (p : PartRef) : State :=
  let t := s.thread p
  s.setThread p { t with waits := t.waits.filter (fun w => !s.waitOver p w) }

/-- CONTEXT_WAKE (R39): the waits of a part whose event has come end, a YIELD by its posting first, and the context
becomes READY or RESIDENT. DESIGN CHOICE, log 5. -/
def execContextWake (p : PartRef) (s : State) : Answer :=
  if !p.ok then .next s
  else match p with
    | .ochre d i => .next (if (s.ochre d i).req.isSome then s.endWaits (.ochre d i) else s)
    | .gang d c x sp =>
      let r : CtxRef := ⟨d, c, x⟩
      if sp && (s.ctx r).spare.isNone || (s.ctx r).st == .empty || (s.ctx r).st == .draining then .next s
      else
        let stamp := s.wakeStamp p
        let s := s.endWaits p
        let s := if (s.ctx r).st == .blocked && !s.pageWait r then ((s.takeContinuation r).timeOut r).recheck r else s
        .next (s.unblock r stamp)

/-- PREDICTION_WAKE (R240): at P, or when the busy bit clears before it. -/
def execPredictionWake (p : PartRef) (s : State) : Answer :=
  match p with
  | .ochre _ _ => .next s
  | .gang d c x sp =>
    let r : CtxRef := ⟨d, c, x⟩
    if !p.ok || (sp && (s.ctx r).spare.isNone) then .next s
    else
      let ended (w : Wait) : Bool := match w with
        | .predict _ _ => s.waitOver p w
        | _ => false
      if (s.thread p).waits.any ended then
        let stamp := s.wakeStamp p
        let t := s.thread p
        .next ((s.setThread p { t with waits := t.waits.filter (fun w => !ended w) }).unblock r stamp)
      else .next s

end Sys2Proof.Machine
end

