-- ==== Sys2Proof/Machine/Preempt.lean ====
section
/-!
DEFINITION. How a pre-emption request comes to be served (R292 to R296): free save slots, the soft and the hard
start of a save, and the events at which one starts.
-/
namespace Sys2Proof.Machine

/-- The save slot a context's save or resume occupies. -/
def SavePhase.slot? : SavePhase → Option Nat
  | .none => Option.none
  | .holding _ n => some n
  | .writing _ n => some n
  | .resuming n => some n

/-- The contexts of a die's cores. -/
def dieContexts (d : Nat) : List CtxRef := (List.range 384).map (fun i => ⟨d, i / 8, i % 8⟩)

/-- Save slots of a partition that are occupied: by saved programs, and by saves and resumes under way (R297). -/
def State.slotsUsed (s : State) (part : Nat) : List Nat :=
  ((s.part part).savedProgs.map (·.slot))
    ++ (bitsOf (s.part part).dies).flatMap (fun d => (dieContexts d).filterMap (fun c => (s.ctx c).save.slot?))

/-- The lowest-numbered free save slot of a partition (R296). -/
def State.freeSlot (s : State) (part : Nat) : Option Nat :=
  let used := s.slotsUsed part
  (List.range (used.length + 1)).find? (fun n => n < (s.part part).saveCnt.toNat && !used.contains n)

/-- The safe count of a context (R293). -/
def State.safeCount (s : State) (c : CtxRef) : Nat := s.cycle - (s.ctx c).safeFrom

/-- Whether no exposed result of a part is pending, those latched while it runs a handler included. -/
def Thread.quiet (t : Thread) : Bool :=
  t.pend.isEmpty && t.late.isNone && (match t.handler with | some h => h.pend.isEmpty | none => true)

/-- Whether no exposed result of a context is pending. -/
def Context.quiet (x : Context) : Bool :=
  x.main.quiet && (match x.spare with | some t => t.quiet | none => true)

/-- Whether a request of a context may be served at all now: it runs a program, is not already held, and waits for no
page-fault answer and no slot of a bundle it has issued (R287, R292, R294). -/
def State.maySave (s : State) (c : CtxRef) : Bool :=
  let x := s.ctx c
  x.want.isSome && x.save == .none && (x.st == .ready || x.st == .issuing || x.st == .resident || x.st == .blocked)
    && !s.pageWait c && x.main.late.isNone && x.spare.all (fun t => t.late.isNone)

/-- A save begins: the context is held from here on (R296 step 1). -/
def State.beginSave (s : State) (c : CtxRef) (hard : Bool) : State :=
  match s.freeSlot (s.partN c.die) with
  | some n => if s.maySave c then s.setCtx c { s.ctx c with save := .holding hard n } else s
  | none => s

/-- Whether a context stands at a safe point: each part's last bundle was an effective SAFE or it has arrived at its
join (R52, R294). -/
def Context.atSafePoint (x : Context) : Bool :=
  (x.main.atSafe || x.main.arrived) && (match x.spare with | some t => t.atSafe || t.arrived | none => true)

/-- A pending request meets the end of a bundle: served softly at a safe point (R294). -/
def State.serveSafe (s : State) (c : CtxRef) : State := if (s.ctx c).atSafePoint then s.beginSave c false else s

/-- A pending request meets a context that is BLOCKED with no exposed result pending: served softly at once, a split one
only at its safe point (R52, R294). -/
def State.serveBlocked (s : State) (c : CtxRef) : State :=
  let x := s.ctx c
  if x.st == .blocked && x.quiet && (x.spare.isNone || x.atSafePoint) then s.beginSave c false else s

end Sys2Proof.Machine
end

