-- ==== Sys2Proof/Machine/Target.lean ====
section
/-!
DEFINITION. Where a unit's bytes of a program lie: in its core's scratchpad and OSB while the program holds a
context, in its save record while it is saved (R254, R257, R296, R297).
-/
namespace Sys2Proof.Machine

/-- Owner tag of a write that serves a context (R248, R393). -/
def State.ctxTag (s : State) (c : CtxRef) : OwnerTag :=
  let x := s.ctx c
  let h := s.homeOf c
  { part := s.partN c.die, src := srcBits h.die h.core h.ctx 0 0, ctx := some c, seq := x.prog.seq,
    prog := x.prog.prog }

/-- Owner tag of a write of a command or an access. -/
def State.tagOf (s : State) (b : Issuer) : OwnerTag := s.ctxTag b.ctx

/-- Virtual address of a save slot of a partition: 16 MiB each from SAVEBASE (R297). -/
def State.slotVa (s : State) (part slot : Nat) : Nat := (s.part part).saveBase.toNat * 2 ^ 24 + slot * 2 ^ 24

/-- Physical address of a byte of a partition, by its page table. -/
def State.walkPa (s : State) (part va : Nat) : Option Nat :=
  match s.walk part va with
  | .ok t => match s.apply part va t with
    | .hit m => some m.pa
    | _ => none
  | .error _ => none

/-- Bytes of a run of virtual memory written, each page where it lies; bytes without a page are not written. -/
def State.putVa (s : State) (part va : Nat) (l : List Byte) (tag : OwnerTag) : State :=
  if l.isEmpty then s else
  (upto (va / 64) ((va + l.length - 1) / 64 - va / 64 + 1)).foldl (fun s k =>
    let a := max va (64 * k)
    let n := min (va + l.length) (64 * k + 64) - a
    match s.walkPa part a with
    | some pa => s.homeWrite pa ((l.drop (a - va)).take n) tag
    | none => s) s

/-- Bytes of a run of virtual memory, zero where there is no page. -/
def State.getVa (s : State) (part va n : Nat) : List Byte :=
  (List.range n).map fun i => match s.walkPa part (va + i) with
    | some pa => s.mem.byte pa
    | none => 0

/-- The first byte of engine e's scratchpad, or OSB, in a save record (R297). -/
def recordSpad (e : Nat) : Nat := 0x5A0000 + 0x40000 * e
def recordOsb (e : Nat) : Nat := 0x0A0000 + 0x10000 * e

/-- Bytes of a program's own scratchpad allocation on an engine. -/
def State.progSpad (s : State) (c : CtxRef) (e off n : Nat) : List Byte :=
  if c.isSaved then s.getVa c.savedPart (s.slotVa c.savedPart c.ctx + recordSpad e + off) n
  else s.spadRead c.die c.core e ((s.ctx c).spadBase + off) n

/-- Bytes written into it by an agent of a rank, generation counters aside. -/
def State.progSpadPut (s : State) (rank : Nat) (c : CtxRef) (e off : Nat) (l : List Byte) : State :=
  if c.isSaved then s.putVa c.savedPart (s.slotVa c.savedPart c.ctx + recordSpad e + off) l (s.ctxTag c)
  else s.spadPutBy rank c.die c.core e ((s.ctx c).spadBase + off) l

/-- One operation's advance of the counters of the blocks a run of bytes of it touches (R230). -/
def State.progBump (s : State) (c : CtxRef) (e : Nat) (runs : List (Nat × Nat)) : State :=
  if c.isSaved then s
  else s.bump c.die c.core e (runs.flatMap (fun r => blocksOf ((s.ctx c).spadBase + r.1) r.2))

/-- Bytes of a program's OSB allocation on an engine, by byte of the allocation. -/
def State.progOsb (s : State) (c : CtxRef) (e off n : Nat) : List Byte :=
  if c.isSaved then s.getVa c.savedPart (s.slotVa c.savedPart c.ctx + recordOsb e + off) n
  else s.osbRead c.die c.core e ((s.ctx c).osbBase + off) n

def State.progOsbPut (s : State) (c : CtxRef) (e off : Nat) (l : List Byte) : State :=
  if c.isSaved then s.putVa c.savedPart (s.slotVa c.savedPart c.ctx + recordOsb e + off) l (s.ctxTag c)
  else s.osbWrite c.die c.core e ((s.ctx c).osbBase + off) l


end Sys2Proof.Machine
end

