-- ==== Sys2Proof/Machine/Launch.lean ====
section
/-!
DEFINITION. Launch records, their checks and acceptance, completion words and MSI-X signals (R275 to R279, R288, R289,
R320).
-/
namespace Sys2Proof.Machine

/-! ### MSI-X (R317, R320, R408) -/

/-- The table entry of a vector. -/
def Partition.vector (q : Partition) (v : Nat) : MsixEntry := ngetD q.msix v .zero

/-- A vector is signalled: its message goes out, or stays pending while the vector is masked, the link is down, the
function stands in D3hot or its driver has not enabled MSI-X (R317, R327). PRESUMED, log 109. -/
def State.signal (s : State) (part v : Nat) : State :=
  let q := s.part part
  if (q.vector v).mask || !q.pcieUp || q.d3 || !q.msixOn then
    s.setPart part { q with msix := nset q.msix v { q.vector v with pending := true } }
  else s.setPart part { q with signalled := q.signalled ++ [v] }

/-! ### Records (R275, R276) -/

/-- A record's fields. -/
def recordOf (l : List Byte) : LaunchRecord :=
  { image := field l 0 2, kernel := field l 2 2, lanes := field l 4 1, regA := field l 5 1, regB := field l 6 1,
    acc := field l 7 1, spad := field l 8 4, osbB := field l 12 4, osbR := field l 16 1, gsize := field l 17 1,
    ctl := BitVec.ofNat 8 (field l 18 1), prio := BitVec.ofNat 8 (field l 19 1), nprog := field l 20 4,
    arg := BitVec.ofNat 64 (field l 24 8), dieMask := BitVec.ofNat 32 (field l 32 4),
    coreMask := BitVec.ofNat 64 (field l 40 8), preb := field l 48 4, compl := BitVec.ofNat 64 (field l 56 8) }

/-- The 64 bytes of a record. -/
def LaunchRecord.bytes (r : LaunchRecord) : List Byte :=
  [toBytes 2 r.image, toBytes 2 r.kernel, toBytes 1 r.lanes, toBytes 1 r.regA, toBytes 1 r.regB, toBytes 1 r.acc,
    toBytes 4 r.spad, toBytes 4 r.osbB, toBytes 1 r.osbR, toBytes 1 r.gsize, toBytes 1 r.ctl.toNat, toBytes 1 r.prio.toNat,
    toBytes 4 r.nprog, toBytes 8 r.arg.toNat, toBytes 4 r.dieMask.toNat, toBytes 4 0, toBytes 8 r.coreMask.toNat,
    toBytes 4 r.preb, toBytes 4 0, toBytes 8 r.compl.toNat].flatten

/-- Check 1 of R276: ranges. -/
def LaunchRecord.inRange (r : LaunchRecord) : Bool :=
  1 ≤ r.lanes && r.lanes ≤ 16 && r.regA ≤ 64 && r.regB ≤ 64 && r.acc ≤ 8 && r.spad ≤ 262144 && r.osbB ≤ 65536
    && r.osbR ≤ 8 && 1 ≤ r.gsize && r.gsize ≤ 16 && 1 ≤ r.nprog && r.compl.toNat % 8 = 0

/-- Check 2: reserved bits, in the record's bytes. -/
def reservedClear (l : List Byte) : Bool :=
  field l 18 1 / 4 = 0 && field l 19 1 / 4 = 0 && field l 35 1 = 0 && field l 36 4 = 0 && field l 46 2 = 0
    && field l 52 4 = 0

/-- Programs of a group of G that stand at a cluster position (R254). -/
def atPosition (g pos : Nat) : Nat := if pos < g then (g - pos + 3) / 4 else 0

/-- Cores of a cluster by position (R16): cluster n of a die. -/
def clusterCore (cluster pos : Nat) : Nat := cluster / 4 * 16 + cluster % 4 * 2 + pos / 2 * 8 + pos % 2

/-- Whether k programs of a record fit on an empty core (R284). -/
def LaunchRecord.fitsEmpty (r : LaunchRecord) (k : Nat) : Bool :=
  k * roundUp r.regA 8 ≤ 64 && k * roundUp r.regB 8 ≤ 64 && k * roundUp r.spad 16384 ≤ 262144 && k * r.acc ≤ 8
    && k * roundUp r.osbB 4096 ≤ 65536

/-- Checks 7 and 8: a program, or a group, fits on an empty permitted core or cluster. -/
def LaunchRecord.fitsSome (r : LaunchRecord) : Bool :=
  if r.gsize = 1 then r.fitsEmpty 1
  else (List.range 12).any fun c => (List.range 4).all fun p =>
    atPosition r.gsize p = 0 || (bitOf r.coreMask (clusterCore c p) && r.fitsEmpty (atPosition r.gsize p))

/-- The first check of R276 that a record fails, by its number; the image entry is none where it could not be read.
DEDUCED, log 41. -/
def State.launchCheck (s : State) (part : Nat) (l : List Byte) (r : LaunchRecord) (e : Option (List Word)) :
    Option Nat :=
  if !r.inRange then some 1
  else if !reservedClear l then some 2
  else if !(match e with
      | some e => s.imageLoaded part r.image e && r.kernel < imgNkern e
      | none => false) then some 3
  else if r.nprog % r.gsize != 0 then some 4
  else if r.dieMask = 0 || r.coreMask = 0 then some 5
  else if (bitsOf r.dieMask).any (fun d => !bitOf (s.part part).dies d) then some 6
  else if r.gsize = 1 && !r.fitsSome then some 7
  else if !r.fitsSome then some 8
  else none

/-! ### Acceptance and refusal (R276, R279, R288) -/

/-- The die whose tables serve a partition's distributor: the lowest that runs (log 30). -/
def State.firstDie (s : State) (part : Nat) : Nat :=
  let l := bitsOf (s.part part).dies
  ((l.find? (fun d => (s.die d).status == .running)).orElse (fun _ => l.head?)).getD 0

/-- The next number of a partition's SEQ series, taken (R279). -/
def State.takeSeq (s : State) (part : Nat) : Nat × State :=
  let q := s.part part
  (q.seq.toNat, s.setPart part { q with seq := q.seq + 1 })

/-- A launch accepted under its SEQ; its image is loaded (R82). -/
def State.acceptAs (s : State) (part seq : Nat) (r : LaunchRecord) (at_ : Word) (queue prio : Nat)
    (bin : Option (Nat × Nat × Nat)) (e : List Word) : State :=
  let k : Launch := { seq := seq, lrec := r, recAddr := at_, queue := queue, bin := bin, prio := prio,
                      next := 0, back := [], retired := 0, saved := [], lastDie := none, waitFrom := s.time, starved := false,
                      entryAddr := BitVec.ofNat 64 (imgKtab e + 8 * r.kernel), imageEntry := e }
  (s.setPart part { s.part part with launches := (s.part part).launches ++ [k] }).loadImage part r.image

/-- A launch accepted: it takes the next SEQ. -/
def State.accept (s : State) (part : Nat) (r : LaunchRecord) (at_ : Word) (queue prio : Nat)
    (bin : Option (Nat × Nat × Nat)) (e : List Word) : State :=
  let (n, s) := s.takeSeq part
  s.acceptAs part n r at_ queue prio bin e

/-- The record 0xA0 of a launch record that failed (R276, R360). -/
def State.refuseLaunch (s : State) (part unit : Nat) (at_ : Word) (check : Nat) : State :=
  s.emit part { s.blankRecord 0xA0 0 (srcBits (s.firstDie part) 0 0 0 unit) with
    val := at_, val2 := BitVec.ofNat 64 check }

/-- A completion word to be stored (R288): none where COMPL is 0. -/
def State.owe (s : State) (part die seq : Nat) (addr value : Word) (queue : Option Nat) : State :=
  if addr = 0 then s
  else
    let (id, s) := s.fresh
    s.setPart part { s.part part with parked := (s.part part).parked ++ [.compl id die seq addr value queue] }

/-- Number of a parked store. -/
def Parked.num : Parked → Nat
  | .compl id _ _ _ _ _ => id
  | .batch id _ _ _ => id

/-- A parked store gone. -/
def State.unpark (s : State) (part id : Nat) : State :=
  let q := s.part part
  s.setPart part { q with parked := q.parked.filter (fun p => p.num != id) }

/-- The record of an access of the distributor or a bin that fails without a walk (R289, R360). DEDUCED, log 77. -/
def State.failStore (s : State) (part die unit seq : Nat) (code : BitVec 8) (va : Word) : State :=
  s.emit part { s.blankRecord code 3 (srcBits die 0 0 0 unit) with seq := BitVec.ofNat 32 seq, val := va }

/-- One completion word stored, where its page, its link and the partition's own host writes before it allow (R274,
R288, R289); its vector follows. -/
def State.storeCompl (s : State) (part id die seq : Nat) (addr value : Word) (queue : Option Nat) : State :=
  if !(s.part part).flush.isEmpty then s
  else
    let (r, s) := s.lookupL2 die part addr.toNat .write
    match r with
    | .miss => s.miss die part { who := .parked part id, kind := .write, va := addr.toNat, helper := false }
    | .refused c => (s.failStore part die 7 seq c addr).unpark part id
    | .hit m =>
      match s.cutOff part m.pa with
      | some c => (s.failStore part die 7 seq c addr).unpark part id
      | none =>
        let tag : OwnerTag := { part := part, src := srcBits die 0 0 0 7, ctx := none, seq := seq, prog := 0 }
        let s := (s.homeWrite m.pa (toBytes 8 value.toNat) tag).unpark part id
        match queue with
        | some q => s.signal part (2 + q / 2)
        | none => s

/-- Every completion word that can be stored is stored. -/
def State.settleCompl (s : State) (part : Nat) : State :=
  (s.part part).parked.foldl (fun s p => match p with
    | .compl id die seq a v q => s.storeCompl part id die seq a v q
    | .batch _ _ _ _ => s) s

/-- The failure value of R288. -/
def failValue : Word := BitVec.allOnes 64

end Sys2Proof.Machine
end

