-- ==== Sys2Proof/Machine/Units.lean ====
section
/-!
DEFINITION. Global memory as the engines' units reach it: through the die's L2 TLB, sector by sector, waiting on the
merge table where a page is not held (R251, R252, R392).
-/
namespace Sys2Proof.Machine

/-- What a unit's access to a run of bytes finds: where its sectors lie, a page it waits for, or a failure at an
address. -/
inductive UnitMap where
  | at_ (l : List (Nat × Nat × Nat))
  | wait
  | fail (code : BitVec 8) (va : Nat)
  deriving DecidableEq, Repr

/-- The context and the number of the command a unit asks for. -/
def State.unitOf (s : State) : Requester → Option (CtxRef × Nat)
  | .mordant d c id => ((s.core d c).morq.find? (fun m => m.id = id)).map (fun m => (m.by_.ctx, m.id))
  | .stream d c id => ((s.core d c).copies.find? (fun m => m.id = id)).map (fun m => (m.by_.ctx, m.id))
  | .ring d c id => ((s.core d c).allRings.find? (fun r => r.id = id)).map (fun r => (r.by_.ctx, r.id))
  | .coll i id => ((s.colls.find? (fun x => x.id = i)).bind (fun x => x.members.find? (fun m => m.id = id))).map
      (fun m => (m.by_.ctx, m.id))
  | .ochre d _ => (s.die d).gq.head?.map (fun g => (g.by_.ctx, g.id))
  | _ => none

/-- Whether a unit's access to mapped bytes must wait: behind accesses of its context to TSO pages (R253; a copy's bytes
have their own order), or for a release that it may not see yet (R264). -/
def State.unitHeld (s : State) (who : Requester) (k : AccessKind) (m : Mapped) (va n : Nat) : Bool :=
  (s.unitOf who).any fun u =>
    (m.tso && (match who with | .stream _ _ _ => false | _ => true) && s.tsoHeld u.1 u.2 (k == .read) va n)
    || (k != .write && s.hidden u.1 none m.pa n)

/-- The core that a unit's packets leave (R305). -/
def State.unitCore (s : State) : Requester → Option (Nat × Nat)
  | .mordant d c _ | .stream d c _ | .ring d c _ => some (d, c)
  | .starting c | .saving c => some (c.die, c.core)
  | who => (s.unitOf who).map (fun u => ((s.homeOf u.1).die, (s.homeOf u.1).core))

/-- The sectors of a run looked up for a requester: address, length and physical address of each, lowest first; the
first that fails, or misses, decides. -/
def State.unitMap (s : State) (die : Nat) (who : Requester) (k : AccessKind) : List (Nat × Nat × Nat) → UnitMap × State
  | [] => (.at_ [], s)
  | (va, n, _) :: r =>
    let va := va % 2 ^ 64
    let part := s.partN die
    let (l, s) := s.lookupL2 die part va k
    match l with
    | .refused c => (.fail c va, s)
    | .miss => (.wait, s.miss die part { who := who, kind := k, va := va, helper := false })
    | .hit m =>
      if s.unitHeld who k m va n || s.routeBusy die m.pa s.time then (.wait, s) else
      let s := s.carryAll ((s.unitCore who).toList ++ homeRouters m.pa n)
      let s := if k == .read then s.l2Read die m.pa m.cached else s
      match s.unitMap die who k r with
      | (.at_ l, s) => (.at_ ((va, n, m.pa) :: l), s)
      | x => x

/-- The first sector of a run that cannot be reached, or for a read is poisoned, with its cause and address. -/
def State.unitFault (s : State) (die : Nat) (read : Bool) (l : List (Nat × Nat × Nat)) : Option (BitVec 8 × Nat) :=
  l.findSome? fun p =>
    (if read then s.readFault (s.partN die) p.2.2 else s.cutOff (s.partN die) p.2.2).map fun c =>
      (c, if c = 0x49 then p.1 / 64 * 64 else p.1)

/-- What a unit's read of a run gives. -/
inductive UnitRead where
  | bytes (l : List Byte)
  | wait
  | fail (code : BitVec 8) (va : Nat)
  deriving DecidableEq, Repr

/-- n bytes read by a unit of a die. -/
def State.unitRead (s : State) (die : Nat) (who : Requester) (va n : Nat) : UnitRead × State :=
  match s.unitMap die who .read (sectors va n) with
  | (.wait, s) => (.wait, s)
  | (.fail c a, s) => (.fail c a, s)
  | (.at_ l, s) =>
    match s.unitFault die true l with
    | some (c, a) => (.fail c a, s)
    | none => (.bytes (l.flatMap (fun p => s.mem.read p.2.2 p.2.1)), s)

/-- Bytes written at mapped sectors in their order. -/
def State.unitWrite (s : State) (l : List (Nat × Nat × Nat)) (bytes : List Byte) (tag : OwnerTag) : State :=
  (l.foldl (fun (x : State × List Byte) p =>
    (x.1.homeWrite p.2.2 (x.2.take p.2.1) tag, x.2.drop p.2.1)) (s, bytes)).1

/-- What ends a unit's command with a fault. -/
structure UnitFault where
  code : BitVec 8
  val : Word
  eng : Nat
  deriving DecidableEq, Repr

end Sys2Proof.Machine
end

