-- ==== Sys2Proof/Machine/Bins.lean ====
section
/-!
DEFINITION. Work-graph bins: records, batches and their launches (R218, R219, R280, R281, R289).
-/
namespace Sys2Proof.Machine

/-- Ticks of a microsecond (log 1). -/
def tickUs : Nat := 168000

/-- The answer of a read or a lookup a unit makes of memory. -/
inductive Got where
  | bytes (l : List Byte)
  | fail (code : BitVec 8)
  | wait
  deriving DecidableEq, Repr

/-- n bytes of one page read by a requester of a die; a miss joins the merge table (R252, R392). -/
def State.fetchFor (s : State) (die part va n : Nat) (who : Requester) : Got × State :=
  let (r, s) := s.lookupL2 die part va .read
  match r with
  | .refused c => (.fail c, s)
  | .miss => (.wait, s.miss die part { who := who, kind := .read, va := va, helper := false })
  | .hit m =>
    match s.readFault part m.pa with
    | some c => (.fail c, s)
    | none => (.bytes (s.mem.read m.pa n), s.l2Read die m.pa m.cached)

/-- The image table entry of an image number, read by a requester (R277). -/
def State.imageFor (s : State) (die part n : Nat) (who : Requester) : Got × State :=
  s.fetchFor die part ((s.part part).imgBase.toNat * 64 + 64 * n) 64 who

/-- Batches of a bin whose programs run or are to be placed. -/
def Bin.flying (b : Bin) : Nat := (b.batches.filter (·.launched)).length

/-- The batch of a number in the module. -/
def Bin.batch (b : Bin) (id : Nat) : Option Batch := b.batches.find? (fun x => x.id == id)

/-- A batch gone, its slots free (R280). -/
def State.freeBatch (s : State) (die bin id : Nat) : State :=
  let b := s.bin die bin
  s.setBin die bin { b with batches := b.batches.filter (fun x => x.id != id) }

/-- Whether a due batch must wait: 64 others are unretired, or one that is 64 or more before it, whose batch entry it
would take (R281). DEDUCED, log 99. -/
def Bin.full (b : Bin) (x : Batch) : Bool :=
  64 ≤ b.flying || b.batches.any (fun y => y.launched && y.num + 64 ≤ x.num)

/-- The SEQ of a batch whose launch has begun: it is taken once. -/
def State.batchSeq (s : State) (part die bin bid : Nat) : Nat × State :=
  let b := s.bin die bin
  match (b.batch bid).bind (·.seq) with
  | some n => (n, s)
  | none =>
    let (n, s) := s.takeSeq part
    (n, s.setBin die bin { b with batches := b.batches.map (fun y => if y.id = bid then { y with seq := some n } else y) })

/-- A batch of a bin changed. -/
def State.mapBatch (s : State) (die bin bid : Nat) (f : Batch → Batch) : State :=
  let b := s.bin die bin
  s.setBin die bin { b with batches := b.batches.map (fun y => if y.id = bid then f y else y) }

/-- The launch record of a bin's batch: one program of a group of one on the bin's die, without a completion word, ARG at the
batch's entry (R281). -/
def Batch.record (x : Batch) (die : Nat) (r : LaunchRecord) : LaunchRecord :=
  { r with nprog := 1, gsize := 1, dieMask := maskOf [die], compl := 0, arg := r.arg + BitVec.ofNat 64 (16 * (x.num % 64)) }

/-- The 16 bytes of a batch's entry (R281). -/
def Batch.entry (x : Batch) : List Byte := toBytes 8 (x.buf.toNat + 64) ++ toBytes 4 x.first ++ toBytes 4 x.count

/-- The program of a batch whose entry is written: its record is checked with its image's entry, once that can be read,
and is launched or frees the batch's slots (R276, R281). -/
def State.checkBatch (s : State) (part id die bin bid : Nat) (x : Batch) (l : List Byte) : State :=
  let r := x.record die (recordOf l)
  let (g, s) := if r.image < (s.part part).imgCnt.toNat then s.imageFor die part r.image (.parked part id)
    else (.fail 0x41, s)
  let e := match g with
    | .bytes m => some (imageWords m)
    | _ => none
  if g == .wait then s
  else match s.launchCheck part (l.take 56 ++ toBytes 8 0) r e with
    | some n => ((s.unpark part id).freeBatch die bin bid).refuseLaunch part 8 x.buf n
    | none =>
      let (n, s) := (s.unpark part id).batchSeq part die bin bid
      (s.mapBatch die bin bid (fun y => { y with launched := true })).acceptAs part n r x.buf 0 (r.prio.toNat % 4)
        (some (die, bin, bid)) (e.getD [])

/-- The launch of a due batch (BATCH_LAUNCH): its 16-byte entry is stored at ARG, then one program is launched from the
bin's record; the batch waits while the bin is full, while a page is missing, and goes with its slots when the record or
the store fails (R281, R289). -/
def State.launchBatch (s : State) (part id die bin bid : Nat) : State :=
  let b := s.bin die bin
  match b.batch bid with
  | none => s.unpark part id
  | some x =>
    if b.full x then s
    else
      let who : Requester := .parked part id
      let drop (s : State) : State := (s.unpark part id).freeBatch die bin bid
      match s.fetchFor die part x.buf.toNat 64 who with
      | (.wait, s) => s
      | (.fail _, s) => (drop s).refuseLaunch part 8 x.buf 9
      | (.bytes l, s) =>
        if x.stored then s.checkBatch part id die bin bid x l
        else
          let fail (s : State) (c : BitVec 8) (va : Nat) : State :=
            let (n, s) := s.batchSeq part die bin bid
            (drop s).failStore part die 8 n c (BitVec.ofNat 64 va)
          match s.unitMap die who .write (sectors (x.record die (recordOf l)).arg.toNat 16) with
          | (.wait, s) => (s.batchSeq part die bin bid).2
          | (.fail c va, s) => fail s c va
          | (.at_ m, s) => match s.unitFault die false m with
            | some (c, va) => fail s c va
            | none =>
              let tag : OwnerTag := { part := part, src := srcBits die 0 0 0 8, ctx := none, seq := 0, prog := 0 }
              ((s.unitWrite m x.entry tag).mapBatch die bin bid (fun y => { y with stored := true })).checkBatch part id die
                bin bid x l

/-- Every due batch of a partition that can be launched is launched, in order. -/
def State.settleBatches (s : State) (part : Nat) : State :=
  (s.part part).parked.foldl (fun s p => match p with
    | .batch id die bin b => s.launchBatch part id die bin b
    | .compl _ _ _ _ _ _ => s) s

/-- The open batch of a bin becomes due. -/
def State.closeBatch (s : State) (die bin : Nat) : State :=
  let b := s.bin die bin
  let part := s.partN die
  match b.batches.find? (fun x => !x.closed) with
  | none => s
  | some x =>
    let s := s.setBin die bin { b with
      batches := b.batches.map (fun y => if y.id = x.id then { y with closed := true } else y) }
    let (id, s) := s.fresh
    let s := s.setPart part { s.part part with parked := (s.part part).parked ++ [.batch id die bin x.id] }
    s.settleBatches part

/-- Whether a slot of a bin belongs to a batch not retired (R280). -/
def Bin.taken (b : Bin) (slot : Nat) : Bool :=
  b.batches.any (fun x => x.buf = b.buf && (slot + b.cap - x.first) % b.cap < x.count)

/-- A record put into its slot: it opens a batch or joins the open one, which is due at COAL records (R281). -/
def State.putRecord (s : State) (die bin : Nat) : State :=
  let b := s.bin die bin
  let next := (b.next + 1) % b.cap
  let (id, s) := s.fresh
  let (bs, n) := match b.batches.find? (fun x => !x.closed) with
    | some x => (b.batches.map (fun y => if y.id = x.id then { y with count := y.count + 1 } else y), x.count + 1)
    | none => (b.batches ++ [{ id := id, num := b.nextBatch, first := b.next, count := 1, openedAt := s.time,
                               buf := b.buf, closed := false, launched := false }], 1)
  let opened := b.batches.all (·.closed)
  let s := s.setBin die bin { b with batches := bs, next := next,
                                     nextBatch := if opened then b.nextBatch + 1 else b.nextBatch }
  if b.coal ≤ n then s.closeBatch die bin else s

/-- BIN_ACCEPT (R219, R280, R281): the earliest NODEPUT whose record has been read is accepted once its slot is free;
it completes there. A page of the slot that is missing is waited for; a store refused fails the NODEPUT. -/
def execBinAccept (die bin : Nat) (s : State) : Answer :=
  let b := s.bin die bin
  let mine (a : Access) : Bool := match a.op with
    | .nodeput d n => d = die && n = bin
    | _ => false
  let first (a : Access) : Bool := s.accs.all (fun x => !mine x || x.who != a.who || a.id ≤ x.id)
  match s.accs.find? (fun a => mine a && first a && !a.isOpen && a.failure.isNone) with
  | none => .next s
  | some a =>
    if b.coal = 0 || b.cap = 0 || b.taken b.next then .next s
    else
      let va := b.buf.toNat + 64 + 8 * b.rsize * b.next
      let fail (s : State) (c : BitVec 8) (va : Nat) : State :=
        let a := { a with pieces := a.pieces.map (fun p => { p with st := .failed c, va := va }) }
        ((s.setAcc a).finish a).unlist die (.access a.id)
      match s.unitMap die (.access a.id) .write (sectors va (8 * b.rsize)) with
      | (.wait, s) => .next s
      | (.fail c va, s) => .next (fail s c va)
      | (.at_ l, s) =>
        match s.unitFault die false l with
        | some (c, va) => .next (fail s c va)
        | none =>
          let s := s.unitWrite l (a.pieces.flatMap (·.data)) (s.tagOf a.by_)
          .next (((s.finish a).unlist die (.access a.id)).putRecord die bin)

/-- BIN_TIMER_EXPIRE (R281). -/
def execBinTimerExpire (die bin : Nat) (s : State) : Answer :=
  let b := s.bin die bin
  match b.batches.find? (fun x => !x.closed) with
  | some x => if b.timer != 0 && x.openedAt + b.timer * tickUs ≤ s.time then .next (s.closeBatch die bin) else .next s
  | none => .next s

/-- NODESET's effect (R218): records held are launched as though the timer had expired, then the bin takes its new
configuration and numbers its batches anew. -/
def State.configureBin (s : State) (die bin : Nat) (sa sb : Word) : State :=
  let s := s.closeBatch die bin
  let v := sb.toNat
  s.setBin die bin { s.bin die bin with
    buf := sa, coal := v % 4096, rsize := v >>> 12 % 16, timer := v >>> 16 % 65536, cap := v >>> 32 % 65536,
    next := 0, nextBatch := 0 }

end Sys2Proof.Machine
end

