-- ==== Sys2Proof/Machine/Branch.lean ====
section
/-!
DEFINITION. Branches, jumps, divergence, the half-gang split and the lane words (R42 to R50, R126 to R130).
-/
namespace Sys2Proof.Machine

/-! ### Plain and uniform branches (R46, R126, R127) -/

/-- BR (R126). -/
def execBr (t : BitVec 21) (s : State) : Answer := guarded (.br t) s fun s => s.jump (s.target t)

/-- BRL (R126): s31 receives the link. -/
def execBrl (t : BitVec 21) (s : State) : Answer :=
  guarded (.brl t) s fun s =>
    let link := s.nextPc
    (s.wr 31 link).jump (s.target t)

/-- BZ (R126). -/
def execBz (a : BitVec 5) (t : BitVec 21) (s : State) : Answer :=
  guarded (.bz a t) s fun s => if s.rd a = 0 then s.jump (s.target t) else s

/-- BNZ (R126). -/
def execBnz (a : BitVec 5) (t : BitVec 21) (s : State) : Answer :=
  guarded (.bnz a t) s fun s => if s.rd a != 0 then s.jump (s.target t) else s

/-- JR (R127). -/
def execJr (a : BitVec 5) (s : State) : Answer := guarded (.jr a) s fun s => s.jump (s.rd a)

/-- JRL (R127): the link is the next bundle. -/
def execJrl (d a : BitVec 5) (s : State) : Answer :=
  guarded (.jrl d a) s fun s =>
    let link := s.nextPc
    (s.wr d link).jump (s.rd a)

/-- A uniform branch that did not trap (R46): agreement decides, else the lowest-numbered active engine does and UDIS
is set. -/
def State.uniform (s : State) (k : BitVec 2) (sense : Bool) (target : Word) : State :=
  let d := s.condMask s.issue.am k sense
  if d = 0 then s
  else if d = s.issue.am then s.jump target
  else
    let first := (bitsOf s.issue.am).head?
    let s := s.setUdis s.home
    if (first.map (fun e => bitOf d e)).getD false then s.jump target else s

/-- BUK (R46, R126). -/
def execBuk (k : BitVec 2) (t : BitVec 21) (s : State) : Answer :=
  guarded (.buk k t) s fun s => s.uniform k true (s.target t)

/-- BUNK (R46, R126). -/
def execBunk (k : BitVec 2) (t : BitVec 21) (s : State) : Answer :=
  guarded (.bunk k t) s fun s => s.uniform k false (s.target t)

/-! ### Divergence and the split (R42, R47, R48) -/

/-- The push of a divergence entry: the taken subset runs first, at the target (R42). -/
def State.pushDiverge (s : State) (taken rest : BitVec 16) (join target : Word) : State :=
  let e : StackEntry := { split := false, ph := false, join := pcBits join, resume := pcBits s.nextPc,
                          full := s.issue.am, pend := rest }
  (s.setThr { s.thr with stack := e :: s.thr.stack, am := taken }).jump target

/-- Whether a long branch of the issuing part may split its gang (R47). -/
def State.maySplit (s : State) : Bool :=
  match s.issue.part with
  | .gang d c x false =>
    (s.core d c).spareOwner.isNone && (s.ctx ⟨d, c, x⟩).spare.isNone && s.thr.handler.isNone
  | _ => false

/-- The results of a list that land for the spare half, or for the primary (R48). -/
def splitPend (l : List Pending) (mine : Nat → Bool) : List Pending :=
  (l.map (fun p => { p with dest := p.dest.filter (fun d => mine d.eng) })).filter (fun p => !p.dest.isEmpty)

/-- The split of a gang (R48, R49): the split entry is pushed below both chains, the spare takes the taken half at the
target with a copy of the registers, loop unit and CSR view and an empty shadow bank, helpers attach to the halves, and
the primary goes on with the rest. DESIGN CHOICE, log 18. -/
def State.split (s : State) (taken rest : BitVec 16) (join target : Word) : State :=
  match s.issue.part with
  | .gang d c x _ =>
    let r : CtxRef := ⟨d, c, x⟩
    let k := s.ctx r
    let e : StackEntry := { split := true, ph := false, join := pcBits join, resume := 0, full := s.issue.am, pend := 0 }
    let half (am : BitVec 16) : Thread := { k.main with am := am, stack := [] }
    let k := { k with base := e :: (k.main.stack ++ k.base), main := half rest,
                      spare := some { half taken with pc := target, shadow := [], causes := [], waits := [] },
                      helpSpare := spareHelpers k.lanes s.issue.am taken }
    let spareEng (n : Nat) : Bool := if n < k.lanes then bitOf taken n else k.helperOfSpare n
    let k := { k with main := { k.main with pend := splitPend k.main.pend (fun n => !spareEng n) },
                      spare := k.spare.map (fun t => { t with pend := splitPend t.pend spareEng }) }
    let s := s.setCtx r k
    let s := s.setCore d c { s.core d c with spareOwner := some x }
    { s with issue := { s.issue with taken := true } }
  | .ochre _ _ => s

/-- A divergent branch (R42, R47). -/
def State.diverge (s : State) (k : BitVec 2) (sense long : Bool) (j : BitVec 2) (target : Word) : State :=
  let t := s.condMask s.issue.am k sense
  let n := s.issue.am &&& ~~~t
  let join := s.litAddr (j.toNat + 1)
  if n = 0 then s.jump target
  else if t = 0 then s
  else if long && s.maySplit then s.split t n join target
  else s.pushDiverge t n join target

/-- BDK (R42). -/
def execBdk (k j : BitVec 2) (t : BitVec 21) (s : State) : Answer :=
  guarded (.bdk k j t) s fun s => s.diverge k true false j (s.target t)

/-- BDK.long (R47). -/
def execBdkLong (k j : BitVec 2) (t : BitVec 21) (s : State) : Answer :=
  guarded (.bdkLong k j t) s fun s => s.diverge k true true j (s.target t)

/-- BDNK (R42). -/
def execBdnk (k j : BitVec 2) (t : BitVec 21) (s : State) : Answer :=
  guarded (.bdnk k j t) s fun s => s.diverge k false false j (s.target t)

/-- BDNK.long (R47). -/
def execBdnkLong (k j : BitVec 2) (t : BitVec 21) (s : State) : Answer :=
  guarded (.bdnkLong k j t) s fun s => s.diverge k false true j (s.target t)

/-! ### Masks and single lanes (R129, R130) -/

/-- MOVAM (R129). -/
def execMovam (d : BitVec 5) (s : State) : Answer :=
  guarded (.movam d) s fun s => s.wr d (s.issue.am.setWidth 64)

/-- The mask SETAM stores (R130), computed against the stack a branch of the bundle left. -/
def State.newMask (s : State) (v : Word) : BitVec 16 :=
  let m := v.setWidth 16 &&& s.tileCtx.lm
  match s.topEntry with
  | some e => m &&& e.full
  | none => m

/-- SETAM (R130). An empty result with a stack entry proceeds at that entry's JOIN when the bundle closes (R44). -/
def execSetam (b : BitVec 5) (l : BitVec 3) (s : State) : Answer :=
  guarded (.setam b l) s fun s => s.setThr { s.thr with am := s.newMask (s.opB b l) }

/-- RDFIRST (R129). -/
def execRdfirst (d : BitVec 5) (n : BitVec 4) (s : State) : Answer :=
  guarded (.rdfirst d n) s fun s =>
    match (bitsOf s.issue.am).head? with
    | some e => s.wr d ((s.tileCtx.engine e).scalar n.toNat)
    | none => s.wr d 0

/-- RDLANE (R129): a lane at or above L reads 0. -/
def execRdlane (d : BitVec 5) (n : BitVec 4) (b : BitVec 5) (l : BitVec 3) (s : State) : Answer :=
  guarded (.rdlane d n b l) s fun s =>
    let j := (s.opB b l).toNat % 16
    s.wr d (if j < s.tileCtx.lanes then (s.tileCtx.engine j).scalar n.toNat else 0)

end Sys2Proof.Machine
end

