-- ==== Sys2Proof/Machine/Sparse.lean ====
section
/-!
DEFINITION. Where the operands of the matrix unit and of Mordant lie, and sparse tiles: headers, regions, metadata,
checks and durations (R199, R223 to R229, R231, R236 to R240, R255).
-/
namespace Sys2Proof.Machine

/-! ### Operand sources -/

/-- A place operand bytes are read from: an engine's own scratchpad, the range of an OSB record of an engine, or an
engine at a cluster position through the window. -/
inductive Source where
  | own (e : Nat)
  | osb (e : Nat) (rec_ : BitVec 128)
  | window (pos eng : Nat)
  deriving DecidableEq, Repr

/-- Core, engine and absolute scratchpad byte of n bytes at an offset of a scratchpad source, where they may be read. -/
def State.srcPlace (s : State) (c : CtxRef) (src : Source) (off : Int) (n : Nat) : Option (Nat × Nat × Nat) :=
  match src with
  | .own e => if within off n (s.ctx c).spadSize then some (c.core, e, (s.ctx c).spadBase + off.toNat) else none
  | .window pos eng =>
    if 0 ≤ off && off < 2 ^ 18 then s.windowAt c (pos * 2 ^ 22 + eng * 2 ^ 18 + off.toNat) n else none
  | .osb _ _ => none

/-- n bytes at an offset of a source, none where any of them may not be read. -/
def State.srcBytes (s : State) (c : CtxRef) (src : Source) (off : Int) (n : Nat) : Option (List Byte) :=
  match src with
  | .osb e r =>
    if within off n (obLen r * 64) then some (s.progOsb c e (obBase r * 64 + off.toNat) n) else none
  | _ => (s.srcPlace c src off n).map (fun p => s.spadRead c.die p.1 p.2.1 p.2.2 n)

/-- The greatest number of bytes up to n that may be read at an offset of a source. -/
def State.srcReach (s : State) (c : CtxRef) (src : Source) (off : Int) : Nat → Nat
  | 0 => 0
  | n + 1 => if (s.srcBytes c src off (n + 1)).isSome then n + 1 else s.srcReach c src off n

/-- Sources of A and B of a matrix record for engine e, with its captured OSB records (R193, R196, R199). -/
def sourceA (mg : BitVec 128) (e : Nat) (obs : BitVec 128 × BitVec 128) : Source :=
  if mgAsrc mg = 1 then .osb e obs.1
  else if mgAsrc mg = 2 then .window (mgAwcore mg) (if mgAwe mg then mgAweng mg else e)
  else .own e

def sourceB (mg : BitVec 128) (e : Nat) (obs : BitVec 128 × BitVec 128) : Source :=
  if mgBsrc mg = 1 then .osb e obs.2
  else if mgBsrc mg = 2 then .window (mgBwcore mg) (if mgBwe mg then mgBweng mg else e)
  else .own e

/-! ### Headers and regions (R224 to R226) -/

/-- A tile header's fields. -/
structure TileHeader where
  fmt : Nat
  n : Nat
  log2m : Nat
  zero : Bool
  tmeta : Bool
  gk : Bool
  gen : Nat
  rows : Nat
  cols : Nat
  deriving DecidableEq, Repr

/-- Consecutive elements of a group. -/
def TileHeader.m (h : TileHeader) : Nat := 2 ^ h.log2m

/-- The fields of 16 bytes. -/
def headerOf (l : List Byte) : TileHeader :=
  let f := ofBytes ((l.drop 6).take 1)
  { fmt := ofBytes ((l.drop 3).take 1), n := ofBytes ((l.drop 4).take 1), log2m := ofBytes ((l.drop 5).take 1) % 8,
    zero := f % 2 = 1, tmeta := f / 2 % 2 = 1, gk := f / 4 % 2 = 1, gen := ofBytes ((l.drop 8).take 4),
    rows := ofBytes ((l.drop 12).take 2), cols := ofBytes ((l.drop 14).take 2) }

/-- Whether 16 bytes are a well-formed header (R225). -/
def headerOk (l : List Byte) : Bool :=
  let h := headerOf l
  let along := if h.gk then h.cols else h.rows
  let other := if h.gk then h.rows else h.cols
  ofBytes (l.take 2) = 0x4E4D && ofBytes ((l.drop 2).take 1) = 1 && ofBytes ((l.drop 6).take 1) < 8
    && ofBytes ((l.drop 7).take 1) = 0 && [2, 3, 4, 5, 8, 9, 10].contains h.fmt
    && 1 ≤ h.rows && h.rows ≤ 256 && 1 ≤ h.cols && h.cols ≤ 256
    && 2 ≤ ofBytes ((l.drop 5).take 1) && ofBytes ((l.drop 5).take 1) ≤ 6
    && ((1 ≤ h.n && h.n ≤ h.m / 2) || h.n = h.m)
    && along % h.m = 0 && (!h.tmeta || (other % h.m = 0 && h.n != h.m))

/-- The 16 bytes of a header. -/
def TileHeader.bytes (h : TileHeader) : List Byte :=
  toBytes 2 0x4E4D ++ toBytes 1 1 ++ toBytes 1 h.fmt ++ toBytes 1 h.n ++ toBytes 1 h.log2m
    ++ toBytes 1 ((if h.zero then 1 else 0) + (if h.tmeta then 2 else 0) + (if h.gk then 4 else 0)) ++ toBytes 1 0
    ++ toBytes 4 h.gen ++ toBytes 2 h.rows ++ toBytes 2 h.cols

/-- Groups of a tile. -/
def TileHeader.groups (h : TileHeader) : Nat := h.rows * h.cols / h.m

/-- Bytes of the values and of one metadata region. -/
def TileHeader.valueBytes (h : TileHeader) : Nat := roundUp ((h.groups * h.n * fmtWidth h.fmt + 7) / 8) 16
def TileHeader.metaBytes (h : TileHeader) : Nat :=
  if h.n = h.m then 0 else roundUp ((h.groups * h.n * h.log2m + 7) / 8) 16

/-- Bytes of a whole tile. -/
def TileHeader.length (h : TileHeader) : Nat :=
  16 + h.valueBytes + h.metaBytes + (if h.tmeta then h.metaBytes else 0)

/-! ### Reading a tile (R227 to R229, R237) -/

/-- A tile as read at one moment: header, values, metadata and transposed metadata as numbers. -/
structure TileData where
  h : TileHeader
  vals : Nat
  prim : Nat
  trans : Nat
  deriving DecidableEq, Repr

/-- The tile of bytes that begin with its header. -/
def tileOf (l : List Byte) : TileData :=
  let h := headerOf l
  let part (at_ n : Nat) : Nat := ofBytes ((l.drop at_).take n)
  { h := h, vals := part 16 h.valueBytes, prim := part (16 + h.valueBytes) h.metaBytes,
    trans := if h.tmeta then part (16 + h.valueBytes + h.metaBytes) h.metaBytes else 0 }

/-- Position p of group g in a metadata stream; of a dense tile, p. -/
def TileData.pos (t : TileData) (m g p : Nat) : Nat :=
  if t.h.n = t.h.m then p else m >>> ((g * t.h.n + p) * t.h.log2m) % t.h.m

/-- Whether the positions of a group ascend strictly (R228). -/
def TileData.ascends (t : TileData) (m g : Nat) : Bool :=
  (List.range (t.h.n - 1)).all (fun p => t.pos m g p < t.pos m g (p + 1))

/-- Group and offset of a stored element for groups along rows or along columns (R227). -/
def TileData.groupOf (t : TileData) (gk : Bool) (r c : Nat) : Nat × Nat :=
  if gk then (r * (t.h.cols / t.h.m) + c / t.h.m, c % t.h.m)
  else (c * (t.h.rows / t.h.m) + r / t.h.m, r % t.h.m)

/-- The place a metadata stream lists an element at, in its group. -/
def TileData.listed (t : TileData) (m : Nat) (g off : Nat) : Option Nat :=
  (List.range t.h.n).find? (fun p => t.pos m g p = off)

/-- The value the primary metadata gives a stored element, if it lists it. -/
def TileData.primary (t : TileData) (r c : Nat) : Option Nat :=
  let (g, off) := t.groupOf t.h.gk r c
  (t.listed t.prim g off).map (fun p => t.vals >>> ((g * t.h.n + p) * fmtWidth t.h.fmt) % 2 ^ fmtWidth t.h.fmt)

/-- The value of a stored element under TV, none where the metadata in use does not list it (R229). -/
def TileData.element (t : TileData) (tv : Bool) (r c : Nat) : Option Nat :=
  if !tv || t.h.n = t.h.m then t.primary r c
  else
    let (g, off) := t.groupOf (!t.h.gk) r c
    (t.listed t.trans g off).map (fun _ => (t.primary r c).getD 0)

/-- Whether K runs along stored columns (R237). -/
def TileHeader.kcol (h : TileHeader) (tv : Bool) : Bool := h.gk != tv

/-- Extents along and across K. -/
def TileHeader.kd (h : TileHeader) (tv : Bool) : Nat := if h.kcol tv then h.cols else h.rows
def TileHeader.od (h : TileHeader) (tv : Bool) : Nat := if h.kcol tv then h.rows else h.cols

/-- The view of a K-step: VROW, TV, the step's number, the rows and the K-step's length KS. -/
structure View where
  vrow : Nat
  tv : Bool
  step : Nat
  rows : Nat
  ks : Nat
  deriving DecidableEq, Repr

/-- VROW and TV of sa (R236). -/
def saVrow (sa : Word) : Nat := sa.toNat >>> 40 % 256
def saTv (sa : Word) : Bool := bitOf sa 32

/-- The slice a K-step takes. -/
def View.slice (v : View) (h : TileHeader) : Nat := v.step % (h.kd v.tv / v.ks)

/-- Element (i, k) of the logical A (R237). -/
def TileData.logical (t : TileData) (v : View) (i k : Nat) : Option Nat :=
  let o := v.vrow + i
  let x := v.slice t.h * v.ks + k
  if t.h.kcol v.tv then t.element v.tv o x else t.element v.tv x o

/-- Groups of the metadata in use that cover the view, and with TV the primary groups its elements fall in. -/
def TileData.viewGroups (t : TileData) (v : View) : List Nat × List Nat :=
  let cells := (List.range v.rows).flatMap (fun i => (List.range v.ks).map (fun k =>
    let o := v.vrow + i
    let x := v.slice t.h * v.ks + k
    if t.h.kcol v.tv then (o, x) else (x, o)))
  let prim := dedup (cells.map (fun p => (t.groupOf t.h.gk p.1 p.2).1))
  (prim, if v.tv then dedup (cells.map (fun p => (t.groupOf (!t.h.gk) p.1 p.2).1)) else [])

/-- Bytes of a tile that a K-step reads: the transposed metadata with TV alone (R238). -/
def TileHeader.readBytes (h : TileHeader) (tv : Bool) : Nat :=
  16 + h.valueBytes + h.metaBytes + (if tv && h.tmeta then h.metaBytes else 0)

/-- Whether group g of a metadata region that begins at a byte of the tile lies in the tile's first n bytes. -/
def TileHeader.holds (h : TileHeader) (region n g : Nat) : Bool := 8 * region + (g + 1) * h.n * h.log2m ≤ 8 * n

/-- The lowest malformed group of a view among those in the tile's first n bytes: primary before transposed (R238 check 6).
DEDUCED, log 44. -/
def TileData.badGroup (t : TileData) (v : View) (n : Nat) : Option Nat :=
  if t.h.n = t.h.m then none
  else
    let (p, x) := t.viewGroups v
    let first := 16 + t.h.valueBytes
    match least (p.filter (fun g => t.h.holds first n g && !t.ascends t.prim g)) with
    | some g => some g
    | none => least (x.filter (fun g => t.h.holds (first + t.h.metaBytes) n g && !t.ascends t.trans g))

/-- The first failing one of checks 1 to 5 of R238, by its number. -/
def headerCheck (l : List Byte) (at_ : Int) (afmt : Nat) (v : View) : Option Nat :=
  let h := headerOf l
  if at_ % 16 != 0 || !headerOk l then some 1
  else if h.fmt != afmt then some 2
  else if h.kd v.tv % v.ks != 0 || h.kd v.tv % h.m != 0 then some 3
  else if h.od v.tv < v.vrow + v.rows then some 4
  else if v.tv && !h.tmeta && h.n != h.m then some 5
  else none

/-- Whether a well-formed header's GEN is the counter of every block its tile touches (R231): only in scratchpads, and not
for a tile whose last region runs past the allocation. DEDUCED, log 123. -/
def State.genMatches (s : State) (c : CtxRef) (src : Source) (off : Int) (h : TileHeader) : Bool :=
  match s.srcPlace c src off h.length with
  | some (core, eng, a) =>
    (blocksOf a h.length).all (fun b => (ngetD (s.core c.die core).gen (eng * 128 + b) 0).toNat = h.gen)
  | none => false

/-- Cycles of a K-step by a tile's header (R239). -/
def TileHeader.cycles (h : TileHeader) (honoured : Bool) : Nat :=
  if honoured then 4 else if h.n = h.m then 32 else max 8 ((32 * h.n + h.m - 1) / h.m)

/-- Cycles of a dense K-step (R198). -/
def denseCycles (mg : BitVec 128) : Nat := if mgAfmt mg = 0 then 4 else 32

/-- The step the scheduler predicts from the header of the lowest engine acted for (R240); a header at no multiple of 16, or
one that may not be read, counts as not well formed. DESIGN CHOICE, log 104. -/
def State.predictedStep (s : State) (c : CtxRef) (mg : BitVec 128) (lane : Option Nat)
    (obs : NMap (BitVec 128 × BitVec 128)) : Nat :=
  match lane with
  | none => 0
  | some e =>
    if !mgSparse mg then denseCycles mg
    else
      let src := sourceA mg e (ngetD obs e (0, 0))
      match s.srcBytes c src (mgAbase mg) 16 with
      | some l =>
        if mgAbase mg % 16 = 0 && headerOk l then
          (headerOf l).cycles ((headerOf l).zero && s.genMatches c src (mgAbase mg) (headerOf l))
        else 32
      | none => 32

end Sys2Proof.Machine
end

