-- ==== Sys2Proof/Machine/System.lean ====
section
/-!
DEFINITION. The system group: NOP, TRAP, RTE, the context CSRs and LDCWT (R146 to R151, R366, R367).
-/
namespace Sys2Proof.Machine

/-- NOP (R151). -/
def execNop (s : State) : Answer := guarded .nop s fun s => s

/-- TRAP (R151): kind 1, with TRAPPC at the next bundle. -/
def execTrap (n : BitVec 3) (s : State) : Answer :=
  guarded (.trap n) s fun s =>
    s.trapAt s.issue.part (s.cause (0xB8 + n.setWidth 8) 1 0 0) s.nextPc

/-- RTE (R352): the return, then the next pending cause of the part. -/
def execRte (s : State) : Answer :=
  guarded .rte s fun s => (s.doRte s.issue.part).takePending s.issue.part

/-! ### Context CSRs (R146 to R149) -/

/-- LOOPST (R149). -/
def Thread.loopst (t : Thread) : Word :=
  match t.loops with
  | v :: _ => BitVec.ofNat 64 (v.iter % 2 ^ 32 * 2 ^ 32 + t.loops.length)
  | [] => 0

/-- What a CSR of a part reads (R147). -/
def State.csrValue (s : State) (p : PartRef) (n : Nat) : Word :=
  match p with
  | .ochre _ _ => 0
  | .gang d c x _ =>
    let k := s.ctx ⟨d, c, x⟩
    let t := s.thread p
    match n with
    | 0x000 => k.ctxctlWord
    | 0x001 => k.arstatWord
    | 0x002 => s.wcstat p
    | 0x003 => s.sbstat ⟨d, c, x⟩
    | 0x004 => t.loopst
    | 0x005 => t.bundles
    | 0x006 => BitVec.ofNat 64 s.cycle
    | 0x008 => t.trapcause
    | 0x009 => t.trappc
    | 0x00A => t.trapval
    | 0x010 => k.prebound.setWidth 64
    | 0x022 => (s.part (s.partN d)).feat.extractLsb' 0 64
    | 0x023 => (s.part (s.partN d)).feat.extractLsb' 64 64
    | _ => 0

/-- All of them, as a bundle captures them when it issues (R102). -/
def State.csrAll (s : State) (p : PartRef) : NMap Word :=
  [0, 1, 2, 3, 4, 5, 6, 8, 9, 0xA, 0x10, 0x20, 0x21, 0x22, 0x23].map (fun n => (n, s.csrValue p n))

/-- What the words of the bundle read from a CSR. -/
def State.csr (s : State) (n : BitVec 12) : Word := ngetD s.issue.csr n.toNat 0

/-- RW bits of TRAPCAUSE (R348). -/
def causeMask : Word := 0x0000FFFF0F0F00FF

/-- A bound below 1,024 is stored as 1,024 (R293). -/
def boundOf (v : Word) : BitVec 32 := if (v.setWidth 32).toNat < 1024 then 1024 else v.setWidth 32

/-- A CSR written field by field: set and keep are the values the written bits give an RW field, where keep bits of the
old value stay; RW0C fields keep a bit only where clear has it (R70, R146, R148, R293, R348). -/
def State.csrPut (s : State) (n : BitVec 12) (set keep clear : Word) : State :=
  let c := s.home
  let x := s.ctx c
  let t := s.thr
  let new (old : Word) : Word := (old &&& keep) ||| set
  match n.toNat with
  | 0x000 =>
    let v := new x.ctxctlWord
    s.setCtx c { x with ftz := bitOf v 0, uchk := bitOf v 1, udis := x.udis && bitOf clear 2 }
  | 0x001 => s.setCtx c { x with arstat := x.arstat &&& clear.setWidth 7 }
  | 0x008 => s.setThr { t with trapcause := new t.trapcause &&& causeMask }
  | 0x009 => s.setThr { t with trappc := pcBits (new t.trappc) }
  | 0x00A => s.setThr { t with trapval := new t.trapval }
  | 0x010 => s.setCtx c { x with prebound := boundOf (new (x.prebound.setWidth 64)) }
  | _ => s

/-- CSRR (R146). -/
def execCsrr (d : BitVec 5) (c : BitVec 12) (s : State) : Answer :=
  guarded (.csrr d c) s fun s => s.wr d (s.csr c)

/-- CSRW (R146). -/
def execCsrw (a : BitVec 5) (c : BitVec 12) (s : State) : Answer :=
  guarded (.csrw a c) s fun s => s.csrPut c (s.rd a) 0 (s.rd a)

/-- CSRS (R146): ones written into RW fields; RW0C fields stay. -/
def execCsrs (d a : BitVec 5) (c : BitVec 12) (s : State) : Answer :=
  guarded (.csrs d a c) s fun s =>
    let s := s.wr d (s.csr c)
    if a = 0 then s else s.csrPut c (s.rd a) (~~~0) (~~~0)

/-- CSRC (R146): zeros written into RW and RW0C fields. -/
def execCsrc (d a : BitVec 5) (c : BitVec 12) (s : State) : Answer :=
  guarded (.csrc d a c) s fun s =>
    let s := s.wr d (s.csr c)
    if a = 0 then s else s.csrPut c 0 (~~~s.rd a) (~~~s.rd a)

/-! ### LDCWT (R150, R366, R367) -/

/-- One piece for each sector. -/
def sectorPieces (va n : Nat) : List Piece :=
  (indexed (sectors va n)).map fun e => { Piece.mk' e.2.1 e.2.2.1 [] with off := e.2.2.2, elem := e.1 }

/-- LDCWT (R150): a load of COUNT entries on the scalar path, which counts in wc0 and holds the part's decode. -/
def execLdcwt (d a : BitVec 5) (s : State) : Answer :=
  guarded (.ldcwt d a) s fun s =>
    let v := s.rd d
    let first := v.toNat % 512
    let count := v.toNat >>> 16 % 1024
    if count = 0 then s
    else
      let (id, s) := s.begin s.scalarPath (.ldcwt first count) (sectorPieces (s.rd a).toNat (32 * count)) none none 0
      s.setThr { s.thr with cwtLoad := s.thr.cwtLoad ++ [id] }

/-- The bytes a finished access has read, in order of their offsets. -/
def Access.bytes (a : Access) : List Byte := a.pieces.flatMap (·.data)

/-- Entries of 32 bytes. -/
def entriesOf (count : Nat) (l : List Byte) : List (BitVec 256) :=
  (List.range count).map (fun i => BitVec.ofNat 256 (ofBytes ((l.drop (32 * i)).take 32)))

/-- The table of a context after entries are written from index first up. -/
def putEntries (m : NMap (BitVec 256)) (first : Nat) (l : List (BitVec 256)) : NMap (BitVec 256) :=
  (indexed l).foldl (fun m e => nset m (first + e.1) e.2) m

/-- A load of control words over: it holds its context's decode no longer. -/
def State.dropCwtLoad (s : State) (c : CtxRef) (id : Nat) : State :=
  let x := s.ctx c
  let cut (t : Thread) : Thread := { t with cwtLoad := t.cwtLoad.filter (· != id) }
  s.setCtx c { x with main := cut x.main, spare := x.spare.map cut }

/-- LDCWT_LOAD_DONE (R150, R366, R367): the oldest load of the context, once all of it is read. A failed read leaves the
table alone and delivers its cause; an entry that breaks R90 rejects the load; else the table is written and the bank's
image tag cleared. -/
def execLdcwtLoadDone (die core ctx : Nat) (s : State) : Answer :=
  let c : CtxRef := ⟨die, core, ctx⟩
  let mine (a : Access) : Bool := a.by_.ctx = c && (match a.op with | .ldcwt _ _ => true | _ => false)
  match (s.accs.find? mine).filter (fun a => !a.isOpen) with
  | none => .next s
  | some a =>
    let s := (s.finish a).dropCwtLoad c a.id
    match a.op with
    | .ldcwt first count =>
      if a.failure.isSome then .next s
      else
        let l := entriesOf count a.bytes
        match (indexed l).find? (fun e => !entryOk e.2) with
        | some e => .next (s.raiseBy a.by_ 0x12 3 (BitVec.ofNat 64 e.1) 0)
        | none =>
          let k := s.core die core
          .next (s.setCore die core { k with
            cwt := nset k.cwt ctx (putEntries (ngetD k.cwt ctx []) first l)
            cwtTag := nerase k.cwtTag ctx })
    | _ => .next s

end Sys2Proof.Machine
end

