-- ==== Sys2Proof/Machine/Commands.lean ====
section
/-!
DEFINITION. The engine commands as they issue: what each captures and the queue it enters (R188 to R208, R212, R218 to
R221). TURN and LINKST stand with the links.
-/
namespace Sys2Proof.Machine

/-- The core of the bundle being issued. -/
def State.coreHere (s : State) : Core := s.core s.home.die s.home.core

/-- The state with it replaced. -/
def State.setCoreHere (s : State) (k : Core) : State := s.setCore s.home.die s.home.core k

/-- A 128-bit record from two registers: sb above sa (R194, R200, R204). -/
def State.record128 (s : State) (a b : BitVec 5) : BitVec 128 := s.rd b ++ s.rd a

/-- A geometry record and a layout record of the issuing context. -/
def State.mg (s : State) (n : Nat) : BitVec 128 := ngetD s.tileCtx.mg n 0
def State.tl (s : State) (n : Nat) : BitVec 128 := ngetD s.tileCtx.tl n 0

/-- OSB record n of an engine of the issuing context. -/
def State.ob (s : State) (e n : Nat) : BitVec 128 := (s.tileCtx.engine e).record n

/-- A value captured for each engine acted for (R189, R190). -/
def State.perLane (s : State) (g : Nat → α) : NMap α := s.activeLanes.map (fun e => (e, g e))

/-! ### The matrix sequencer (R194 to R198) -/

/-- MSET (R194). -/
def execMset (a b : BitVec 5) (n : BitVec 4) (s : State) : Answer :=
  guarded (.mset a b n) s fun s =>
    s.setCtx s.home { s.tileCtx with mg := nset s.tileCtx.mg n.toNat (s.record128 a b) }

/-- Cycle at which everything queued at the matrix sequencer of a core is predicted to be complete (R240); of a command past
its own prediction the current cycle. DESIGN CHOICE, log 124. -/
def State.matrixEnd (s : State) (k : Core) : Nat := k.matq.foldl (fun m c => max m c.predicted) s.cycle

/-- A matrix command queued with what it captures; with no K-step it completes at once (R189, R196, R240). -/
def State.queueMatrix (s : State) (tern : Bool) (a b : BitVec 5) (n : BitVec 4) : State :=
  let c := (s.rd a).toNat % 2 ^ 32
  if c = 0 then s
  else
    let mg := s.mg n.toNat
    let obs := s.perLane (fun e => (s.ob e (mgAob mg), s.ob e (mgBob mg)))
    let (id, s) := s.fresh
    let k := s.coreHere
    let m : MatrixCmd :=
      { id := id, by_ := s.issuer, tern := tern, sa := s.rd a, sb := s.rd b, mg := mg, am := s.issue.am, obs := obs,
        predicted := s.matrixEnd k + c * s.predictedStep s.home mg s.activeLanes.head? obs, running := false,
        step := 0, stepAt := 0, flags := 0 }
    s.setCoreHere { k with matq := k.matq ++ [m] }

/-- MLOOP (R196). -/
def execMloop (a b : BitVec 5) (n : BitVec 4) (s : State) : Answer :=
  guarded (.mloop a b n) s fun s => s.queueMatrix false a b n

/-- MTERN (R197). -/
def execMtern (a b : BitVec 5) (n : BitVec 4) (s : State) : Answer :=
  guarded (.mtern a b n) s fun s => s.queueMatrix true a b n

/-! ### Mordant (R200 to R203) -/

/-- A Mordant command queued with the records it has for its engines. -/
def State.queueWith (s : State) (op : MordantOp) (n : BitVec 3) (sa sb : Word) (ob : Nat → BitVec 128) : State :=
  let (id, s) := s.fresh
  let k := s.coreHere
  let m : MordantCmd :=
    { id := id, by_ := s.issuer, op := op, ob := n.toNat, sa := sa, sb := sb, am := s.issue.am,
      obs := s.perLane ob, phase := 0, gens := [], flags := 0 }
  s.setCoreHere { k with morq := k.morq ++ [m] }

/-- A Mordant command queued with its captured records. -/
def State.queueMordant (s : State) (op : MordantOp) (n : BitVec 3) (sa sb : Word) : State :=
  s.queueWith op n sa sb (fun e => s.ob e n.toNat)

/-- OSB record n of the engines of a mask of a context written (R200, R203). -/
def State.setRecords (s : State) (c : CtxRef) (am : BitVec 16) (n : Nat) (v : BitVec 128) : State :=
  s.setCtx c ((bitsOf am).foldl (fun x e => x.setEngine e { x.engine e with ob := nset (x.engine e).ob n v }) (s.ctx c))

/-- The two sides of QRES: the command it queues and the record it writes. -/
def State.queueQres (s : State) (a b : BitVec 5) (z : BitVec 1) (n : BitVec 3) : State :=
  s.queueWith (.qres (z = 1)) n (s.rd a) (s.rd b) (fun _ => s.record128 a b)
def State.putQres (s : State) (a b : BitVec 5) (n : BitVec 3) : State :=
  s.setRecords s.home s.issue.am n.toNat (s.record128 a b)

/-- QRES (R200): commands issued later capture the record; .z zeroes its range when Mordant reaches it. DEDUCED, log
38. -/
def execQres (a b : BitVec 5) (z : BitVec 1) (n : BitVec 3) (s : State) : Answer :=
  guarded (.qres a b z n) s fun s => (s.queueQres a b z n).putQres a b n

/-- QCVT (R201). -/
def execQcvt (a b : BitVec 5) (c : BitVec 2) (n : BitVec 3) (s : State) : Answer :=
  guarded (.qcvt a b c n) s fun s => s.queueMordant (.qcvt c.toNat) n (s.rd a) (s.rd b)

/-- QPRUNE (R202). -/
def execQprune (a b : BitVec 5) (n : BitVec 3) (s : State) : Answer :=
  guarded (.qprune a b n) s fun s => s.queueMordant .qprune n (s.rd a) (s.rd b)

/-- QREL (R203). -/
def execQrel (n : BitVec 3) (s : State) : Answer :=
  guarded (.qrel n) s fun s => s.queueMordant .qrel n 0 0

/-! ### The stream engine (R204 to R207) -/

/-- CPYSET (R204). -/
def execCpyset (a b : BitVec 5) (n : BitVec 4) (s : State) : Answer :=
  guarded (.cpyset a b n) s fun s =>
    s.setCtx s.home { s.tileCtx with tl := nset s.tileCtx.tl n.toNat (s.record128 a b) }

/-- A copy queued, counted in wc2 (R205). -/
def State.queueCopy (s : State) (a b : BitVec 5) (g : BitVec 1) (n : BitVec 3) (cont : Option Word) : State :=
  let src := s.tl (2 * n.toNat)
  let dst := s.tl (2 * n.toNat + 1)
  let (id, s) := s.fresh
  let k := s.coreHere
  let c : CopyCmd :=
    { id := id, by_ := s.issuer, sa := s.rd a, sb := s.rd b, src := src, dst := dst, am := s.issue.am,
      gang := g = 1, cont := cont, obs := s.perLane (fun e => (s.ob e (tlOb src), s.ob e (tlOb dst))),
      started := false }
  (s.setCoreHere { k with strq := k.strq ++ [.copy c] }).wcUp s.issue.part 2

/-- CPY (R205). -/
def execCpy (a b : BitVec 5) (g : BitVec 1) (n : BitVec 3) (s : State) : Answer :=
  guarded (.cpy a b g n) s fun s => s.queueCopy a b g n none

/-- CPYY (R206): a posting of the context is counted from here. -/
def execCpyy (a b : BitVec 5) (j : BitVec 2) (g : BitVec 1) (n : BitVec 3) (s : State) : Answer :=
  guarded (.cpyy a b j g n) s fun s =>
    let s := s.queueCopy a b g n (some (s.litAddr (j.toNat + 1)))
    s.setCtx s.home { s.tileCtx with cpyy := s.tileCtx.cpyy + 1 }

/-- RINGSET (R207). -/
def execRingset (a b : BitVec 5) (sc side : BitVec 1) (n : BitVec 4) (s : State) : Answer :=
  guarded (.ringset a b sc side n) s fun s =>
    let (id, s) := s.fresh
    let k := s.coreHere
    let r : RingCmd := { id := id, by_ := s.issuer, prod := side = 1, sys := sc = 1, desc := s.rd a, base := s.rd b,
                         tl := s.tl n.toNat }
    s.setCoreHere { k with strq := k.strq ++ [.ring r] }

/-! ### The gather engine (R208) -/

/-- One request for each engine acted for, each counted in wc3. -/
def State.queueGather (s : State) (a b : BitVec 5) (ob : Option Nat) : State :=
  s.activeLanes.foldl (fun s e =>
    let (id, s) := s.fresh
    let d := s.die s.home.die
    let g : GatherReq := { id := id, by_ := { s.issuer with order := id }, eng := e, addr := s.rd a + BitVec.ofNat 64 (64 * e), dst := s.rd b,
                           ob := ob.map (s.ob e), obN := ob.getD 0 }
    (s.setDie s.home.die { d with gq := d.gq ++ [g] }).wcUp s.issue.part 3) s

/-- GTHR.sp (R208). -/
def execGthrSp (a b : BitVec 5) (s : State) : Answer :=
  guarded (.gthrSp a b) s fun s => s.queueGather a b none

/-- GTHR.ob (R208). -/
def execGthrOb (a b : BitVec 5) (n : BitVec 3) (s : State) : Answer :=
  guarded (.gthrOb a b n) s fun s => s.queueGather a b (some n.toNat)

/-! ### Collectives (R212) -/

/-- COLL (R212): the member joins its instance when the collective engine has read its descriptor. -/
def execColl (a b : BitVec 5) (s : State) : Answer :=
  guarded (.coll a b) s fun s =>
    let (id, s) := s.fresh
    let m : CollMember := { id := id, mem := (s.rd b).toNat % 65536, by_ := s.issuer, desc := s.rd a, src := 0,
                            dst := 0, written := false, dead := false }
    let i : CollInst := { id := id, part := s.partN s.home.die, group := 0, k := 0, count := 0, nmemb := 0, op := 0,
                          fmt := 0, root := 0, members := [m], mismatch := false, formed := false, results := [] }
    ({ s with colls := s.colls ++ [i] }).wcUp s.issue.part 2

/-! ### Work graphs and device launch (R218 to R220) -/

/-- NODESET (R218). -/
def execNodeset (a b : BitVec 5) (n : BitVec 6) (s : State) : Answer :=
  guarded (.nodeset a b n) s fun s => s.configureBin s.home.die n.toNat (s.rd a) (s.rd b)

/-- NODEPUT (R219): the record's read on the scalar path; the bin accepts it by BIN_ACCEPT. -/
def execNodeput (a b : BitVec 5) (la : BitVec 4) (n : BitVec 6) (s : State) : Answer :=
  guarded (.nodeput a b la n) s fun s =>
    let die := (s.rd b).toNat % 32
    let (id, s) := s.begin .scalar (.nodeput die n.toNat)
      (sectorPieces (s.rd a).toNat (8 * (s.bin die n.toNat).rsize)) none none 4
    s.look la.toNat (.access id)

/-- LAUNCH (R220): the record's read on the scalar path, a release at package scope. -/
def execLaunch (a b : BitVec 5) (la : BitVec 4) (s : State) : Answer :=
  guarded (.launch a b la) s fun s =>
    let (id, s) := s.begin .scalar (.launch ((s.rd b).toNat % 64) a.toNat) (sectorPieces (s.rd a).toNat 64) none
      (some .pkg) 4
    s.look la.toNat (.access id)

end Sys2Proof.Machine
end

