-- ==== Sys2Proof/Machine/Resets.lean ====
section
/-!
DEFINITION. A partition's reset, the connection of its dies, accesses lost with a link, and whether a partition's
function takes register writes (R25, R273, R327, R403, R405).
-/
namespace Sys2Proof.Machine

/-! ### Register writes of the host (R273, R327) -/

/-- Whether a partition presents a function: it is formed, or none is yet (R25, R29, R327). -/
def State.presents (s : State) (part : Nat) : Bool :=
  part < 4 && ((s.part part).formed || (List.range 4).all (fun p => !(s.part p).formed))

/-- Whether a partition's function takes a write of a register: its link is up, it stands in D0 (R317) and every
posted write before it is performed; outside the management block the module is Ready. -/
def State.bar0Open (s : State) (part : Nat) (mgmt : Bool) : Bool :=
  s.presents part && (s.part part).pcieUp && !(s.part part).d3 && (s.part part).posted.isEmpty
    && (mgmt || (s.stage = 5 && (s.part part).formed))

/-! ### Links and dies (R14, R25) -/

/-- Dies reached from a set over links that a test lets pass, so many steps out. -/
def reach (pass : Nat → Bool) (l : List Nat) : Nat → List Nat
  | 0 => l
  | n + 1 => reach pass (dedup (l ++ (List.range 34).filterMap (fun k =>
      let (a, b) := linkEnds k
      if !pass k then none else if l.contains a then some b else if l.contains b then some a else none))) n

/-- Whether dies are connected over links among them that a test lets pass. -/
def connected (dies : List Nat) (pass : Nat → Bool) : Bool :=
  match dies with
  | [] => true
  | d :: _ =>
    let r := reach (fun k => pass k && dies.contains (linkEnds k).1 && dies.contains (linkEnds k).2) [d] 24
    dies.all r.contains

/-- The compute die of the I/O die that presents a partition's function (R26, R29). -/
def State.functionDie (s : State) (part : Nat) : Option Nat := (s.functionIod part).map iodDie

/-! ### Accesses lost with a link (R403) -/

/-- Whether a piece of an access of a partition may be on its way over a link (R26 to R28): of a boundary link, to the
partition beyond it; of a link to an I/O die, to the host or another module; of any other, to another die of the
partition or to an I/O die. -/
def State.ridesOn (s : State) (part link die : Nat) (p : Piece) : Bool :=
  let (a, b) := linkEnds link
  p.isOpen && p.pa.elim false fun pa =>
    if (s.link link).boundary then
      let peer := if bitOf (s.part part).dies a then s.partN b else s.partN a
      paLocal pa && !bitOf (s.part part).dies (paDie pa) && s.partN (paDie pa) = peer
    else if 24 ≤ b then !paLocal pa
    else !paLocal pa || (bitOf (s.part part).dies (paDie pa) && paDie pa != die)

/-- An access lost: its open pieces fail and nothing of it lands. -/
def Access.lose (code : BitVec 8) (a : Access) : Access :=
  { a with pieces := a.pieces.map (fun (p : Piece) => if p.isOpen then { p with st := .failed code } else p),
           dropped := true }

/-- A program ends with a system cause: one that has ended already writes only a record (R355), a saved one ends when it is
placed (R394, R403). -/
def State.endLost (s : State) (c : CtxRef) (code : BitVec 8) (val : Word) : State :=
  let q := s.systemCause code val
  if c.isSaved then s.doom c.savedPart c.ctx code val
  else match (s.ctx c).st with
    | .empty => s
    | .draining => s.emit (s.partN c.die) (s.causeRecord c false false q)
    | _ => s.endProgram c false q

/-- Contexts of a partition with an access lost on a closed link end with 0xA5. Which accesses were under way on it the
manual leaves open: of those that may have been, a free choice (log 4), and all of them where no other boundary link
joins the two partitions. DESIGN CHOICE, log 72. -/
def State.loseRoutes (s : State) (part link : Nat) : State :=
  let (a, b) := linkEnds link
  let alone := (s.link link).boundary && !s.bridgeOpen (s.partN a) (s.partN b)
  let lost : List Access := s.accs.filter (fun a =>
    s.partN a.who.die = part && a.pieces.any (s.ridesOn part link a.who.die)
      && (alone || Config.freeChoice (s.freeCtr + a.id) % 2 = 1))
  let ctxs : List CtxRef := dedup (lost.map (fun a => a.by_.ctx))
  ctxs.foldl (fun s c => s.endLost c 0xA5 (BitVec.ofNat 64 link))
    { s with freeCtr := s.freeCtr + s.nextId + 1
             accs := s.accs.map fun (a : Access) => if lost.any (fun b => b.id = a.id) then a.lose 0xA5 else a }

/-- The same for every partition whose traffic a link carries. -/
def State.loseOver (s : State) (link : Nat) : State :=
  let (a, b) := linkEnds link
  let on (d : Nat) : List Nat := if d < 24 then (s.partOf d).toList else []
  (dedup (on a ++ on b)).foldl (fun s p => s.loseRoutes p link) s

/-! ### Reset of a partition (R405) -/

/-- Records 0xA4 of every program of a partition, those that have ended already among them (R355). -/
def State.resetRecords (s : State) (part : Nat) : State :=
  ((bitsOf (s.part part).dies).flatMap (fun d => (List.range 384).map (fun i => (⟨d, i / 8, i % 8⟩ : CtxRef)))).foldl
    (fun s c =>
      let x := s.ctx c
      if x.st == .empty then s
      else s.emit part (s.causeRecord c false (x.st != .draining) (s.systemCause 0xA4 0))) s

/-- A die as a reset leaves it: its state of recovery and its poison stay. -/
def Die.atReset (d : Die) : Die :=
  { Die.zero with status := d.status, readmitStep := d.readmitStep, junction := d.junction, hot := d.hot, gate := d.gate,
                  corrected := d.corrected, poisonAll := d.poisonAll }

/-- A partition's registers as a reset leaves them: its dies and windows, features, power and hold registers, its host
port and its fault queue stay. DEDUCED, log 73. -/
def Partition.atReset (k : Partition) : Partition :=
  { Partition.zero with
    formed := true, dies := k.dies, resetting := true, bwin := k.bwin, feat := k.feat, cfgfp := k.cfgfp, capEn := k.capEn,
    cap := k.cap, pwrCause := k.pwrCause, tmax := k.tmax, hbmW := k.hbmW, dieW := k.dieW,
    hold := k.hold, attAddr := k.attAddr, attRun := k.attRun, pcieUp := k.pcieUp, d3 := k.d3, fqBase := k.fqBase, fqEn := k.fqEn,
    fqLog2 := k.fqLog2, fqWp := k.fqWp, fqRp := k.fqRp, holding := k.holding, behind := k.behind, msix := k.msix, cfg := k.cfg, msixOn := k.msixOn,
    msixLast := k.msixLast, msixOwed := k.msixOwed, signalled := k.signalled }

/-- Everything that stands on dies of a partition cleared. -/
def State.clearDies (s : State) (part : Nat) (dies : BitVec 24) : State :=
  let on (d : Nat) : Bool := bitOf dies d
  let mine (c : CtxRef) : Bool := on c.die || (c.isSaved && c.savedPart = part)
  let s := s.dropImages part (fun _ => true)
  { s with
    ctxs := s.ctxs.filter (fun e => !(e.1 < 9216 && on (e.1 / 384)) && !(9216 ≤ e.1 && (e.1 / 384 - 32) / 65536 = part))
    cores := s.cores.filter (fun e => !on (e.1 / 48))
    clusters := s.clusters.filter (fun e => !on (e.1 / 12))
    dies := s.dies.map (fun e => if on e.1 then (e.1, e.2.atReset) else e)
    accs := s.accs.filter (fun a => !on a.who.die && !mine a.by_.ctx)
    colls := s.colls.filter (fun i => !(i.members.any (fun m => mine m.by_.ctx)))
    joins := s.joins.filter (fun j => j.1.1 != part)
    tags := s.tags.map (fun e => if e.2.part = part then (e.1, { e.2 with ctx := none }) else e)
    cmds := s.cmds.filter (fun c => !on c.who.die)
    dir := (s.dir.map (fun e => (e.1, e.2 &&& ~~~dies))).filter (fun e => e.2 != 0) }

/-- A partition reset (R405): every program ends with 0xA4 and nothing of the partition runs until it is formed again;
its memory stays. -/
def State.resetPartition (s : State) (part : Nat) : State :=
  let s := s.resetRecords part
  let s := s.clearDies part (s.part part).dies
  s.setPart part (s.part part).atReset

/-- Whether every Witas link of a die is lost: it is to be contained (R402). -/
def State.cutAway (s : State) (die : Nat) : Bool :=
  ((List.range 38).filter (fun k => endDie k die)).all (fun k => (s.link k).closed)

/-- Whether a partition's healthy dies are still connected and its function's die stands (R405). -/
def State.wholeEnough (s : State) (part : Nat) : Bool :=
  let live := (bitsOf (s.part part).dies).filter (fun d => (s.die d).status == .running && !s.cutAway d)
  connected live (fun k => !(s.link k).closed)
    && (match s.functionDie part with
      | some d => (s.die d).status == .running
      | none => true)

/-- The partition is reset where it cannot go on. -/
def State.checkWhole (s : State) (part : Nat) : State :=
  if (s.part part).formed && !(s.part part).resetting && !s.wholeEnough part then s.resetPartition part else s

end Sys2Proof.Machine
end

