-- ==== Sys2Proof/Machine/Links.lean ====
section
/-!
DEFINITION. Witas links, their controllers and turns, TURN and LINKST, link replay and Airufold ports (R215 to R217,
R309 to R316, R321, R397 to R400, R409).
-/
namespace Sys2Proof.Machine

/-! ### Directions and floors (R309, R310, R398) -/

/-- Groups 0 to 15 that a test picks. -/
def groupsWhere (f : Nat → Bool) : List Nat := (List.range 16).filter f

/-- Whether a group is the one that turns. -/
def Link.isTurning (l : Link) (g : Nat) : Bool := match l.turning with | some t => t.group = g | none => false

/-- The healthy groups that carry a direction now, up meaning toward the higher-numbered end. -/
def Link.carrying (l : Link) (up : Bool) : List Nat :=
  groupsWhere (fun g => bitOf l.up g == up && !bitOf l.retired g && !l.isTurning g)

/-- The floor of a direction that holds so many groups (R310, R398). -/
def Link.floorOf (l : Link) (n : Nat) : Nat := if l.retired = 0 then 2 else if n < 4 then 1 else 2

/-- Whether a direction may give up one group. -/
def Link.mayGive (l : Link) (up : Bool) : Bool :=
  let n := (l.carrying up).length - 1
  l.floorOf n ≤ n && (l.carrying up).length != 0

/-- Whether a group may turn by its dwell (R310). -/
def Link.rested (l : Link) (now g : Nat) : Bool := match nget l.dwell g with | some t => t ≤ now | none => true

/-- Direction from a die of a link toward its peer; from any other die, toward the higher end (R217). -/
def upFrom (link die : Nat) : Bool := (linkEnds link).2 != die

/-! ### Budgets (R314) -/

/-- The current window of 21,000 cycles. -/
def State.window (s : State) : Nat := s.cycle / 21000

/-- Turns charged to a context in the current window. -/
def State.charged (s : State) (c : CtxRef) : Nat :=
  let x := s.ctx c
  if x.budgetWin = s.window then x.budgetUsed else 0

/-- Whether its budget is spent. -/
def State.spent (s : State) (c : CtxRef) : Bool := 8 ≤ s.charged c

/-- One turn charged. -/
def State.charge (s : State) (c : CtxRef) : State :=
  s.setCtx c { s.ctx c with budgetUsed := s.charged c + 1, budgetWin := s.window }

/-! ### Corrected errors and retirement (R390, R398, R399) -/

/-- A 0xAA record of a die, with its count in VAL2. DEDUCED, log 36. -/
def State.correctedRecord (s : State) (die unit array mid index count : Nat) : State :=
  match s.partOf die with
  | some p => s.emit p { s.blankRecord 0xAA 0 (srcBits die 0 0 0 unit) with
      val := BitVec.ofNat 64 (array % 256 * 2 ^ 56 + mid % 2 ^ 24 * 2 ^ 32 + index % 2 ^ 32),
      val2 := BitVec.ofNat 64 (min count (2 ^ 64 - 1)) }
  | none => s

/-- Corrections counted for a die and array: their record is written when a millisecond has passed since the last
one, else they wait for the next (R390). -/
def State.countCorrected (s : State) (die unit array index n : Nat) : State :=
  let d := s.die die
  let (k, last) := ngetD d.corrected array (0, none)
  let due := match last with | some t => t + 1000 * tickUs ≤ s.time | none => true
  if due && 0 < k + n then
    (s.setDie die { d with corrected := nset d.corrected array (0, some s.time) }).correctedRecord die unit array 0
      index (k + n)
  else s.setDie die { d with corrected := nset d.corrected array (k + n, last) }

/-! ### Service of requests (R312) -/

/-- A group begins to turn. -/
def State.beginTurn (s : State) (link g : Nat) (up : Bool) : State :=
  s.setLink link { s.link link with turning := some { group := g, up := up, phase := .drain } }

/-- The request in service goes on: it ends at its target or with a spent budget, else the next qualifying group turns;
a turn that would break the floor is not made and is charged (R312, R400). -/
def State.serve (s : State) (link : Nat) : Nat → State
  | 0 => s
  | n + 1 =>
    let l := s.link link
    match l.serving with
    | none => s
    | some r =>
      if l.turning.isSome then s
      else
        let d := upFrom link r.die
        let have_ := (l.carrying d).length
        if have_ = r.target || s.spent r.ctx then s.setLink link { l with serving := none }
        else
          let from_ := if have_ < r.target then !d else d
          match (l.carrying from_).find? (l.rested s.time) with
          | none => s
          | some g =>
            let s := s.charge r.ctx
            if l.mayGive from_ then s.beginTurn link g (!from_) else s.serve link n

/-- The next request a controller takes: from the end it did not serve last where that has any, there the highest
priority, then the earliest (R312, R313). -/
def Link.nextRequest (l : Link) (link : Nat) : Option TurnReq :=
  let high (r : TurnReq) : Bool := r.die = (linkEnds link).2
  let other := l.queue.filter (fun r => high r != l.lastHigh)
  let pool := if other.isEmpty then l.queue else other
  pool.foldl (fun best r => match best with
    | none => some r
    | some b => if b.prio < r.prio then some r else some b) none

/-- TURN_SERVICE (R312): after a turn of AUTO has ended (R315). -/
def execTurnService (link : Nat) (s : State) : Answer :=
  let l := s.link link
  if 37 < link || l.boundary || l.turning.isSome then .next s
  else if l.serving.isSome then .next (s.serve link 9)
  else match l.nextRequest link with
    | none => .next s
    | some r =>
      let s := s.setLink link { l with serving := some r, queue := l.queue.erase r, asked := [],
                                       lastHigh := r.die = (linkEnds link).2 }
      .next (s.serve link 9)

/-- DWELL_END (R310, R312). -/
def execDwellEnd (link group : Nat) (s : State) : Answer :=
  let l := s.link link
  match nget l.dwell group with
  | some t => if t ≤ s.time then .next ((s.setLink link { l with dwell := nerase l.dwell group }).serve link 9) else .next s
  | none => .next s

/-- TURN_BUDGET_WINDOW (R314): every budget of an earlier window renews. -/
def execTurnBudgetWindow (s : State) : Answer :=
  let w := s.window
  .next { s with ctxs := s.ctxs.map (fun p =>
    (p.1, if p.2.budgetWin < w then { p.2 with budgetWin := w, budgetUsed := 0 } else p.2)) }

/-- AUTO_WINDOW_END (R315, R316): at the end of a 10 µs window, and once for each, one group turns toward a direction
busy at least 90% of it while the other was busy below 50%; a link to an I/O die turns only at a request. The windows are
those of R314. DEDUCED, log 113. The group is the lowest-numbered that has rested. DESIGN CHOICE, log 125. -/
def execAutoWindowEnd (link busyUp busyDown : Nat) (s : State) : Answer :=
  let l := s.link link
  let ends := s.cycle % 21000 = 0 && s.window != l.autoWin
  let s := if ends then s.setLink link { l with autoWin := s.window } else s
  let turn (up : Bool) : Answer :=
    match (l.carrying (!up)).find? (l.rested s.time) with
    | some g => if l.mayGive (!up) then .next (s.beginTurn link g up) else .next s
    | none => .next s
  if 33 < link || !ends || l.boundary || !l.auto || l.turning.isSome then .next s
  else if 90 ≤ busyUp && busyDown < 50 then turn true
  else if 90 ≤ busyDown && busyUp < 50 then turn false
  else .next s

/-- AUTO_ENTRY (R315): 50 µs without a TURN entered, with the queue empty. -/
def execAutoEntry (link : Nat) (s : State) : Answer :=
  let l := s.link link
  if link ≤ 37 && !l.boundary && l.queue.isEmpty && l.lastTurn + 50 * tickUs ≤ s.time then
    .next (s.setLink link { l with auto := true })
  else .next s

/-! ### TURN and LINKST (R216, R217, R311) -/

/-- Requests entered one after the other: each replaces an earlier one of its context, or is refused where 8 others are
queued (R311). The queue, and those refused. -/
def enterTurns (queue : List TurnReq) (l : List TurnReq) : List TurnReq × List TurnReq :=
  l.foldl (fun x r =>
    let others := x.1.filter (fun q => q.ctx != r.ctx)
    if 8 ≤ others.length then (x.1, x.2 ++ [r]) else (others ++ [r], x.2)) (queue, [])

/-- A status returned to the register of a request: its target and the status. -/
def State.turnStatus (s : State) (r : TurnReq) (st : Nat) : State :=
  let p : PartRef := .gang r.ctx.die r.ctx.core r.ctx.ctx r.spare
  if r.spare && (s.ctx r.ctx).spare.isNone then s
  else s.setThread p ((s.thread p).setReg r.rd (BitVec.ofNat 64 (r.target * 256 + st)))

/-- A TURN's status and the state it leaves. The requests of one cycle are entered in ascending order of issuing die: one of
a higher die that had found the last place gives it up and takes STATUS 3 (R311). -/
def State.requestTurn (s : State) (c : CtxRef) (spare : Bool) (link n prio rd : Nat) : Nat × State :=
  let l := s.link link
  let target := max 2 (min 14 n)
  if (l.carrying (upFrom link c.die)).length = target then (2, s)
  else if s.spent c then (4, s)
  else
    let r : TurnReq := { ctx := c, die := c.die, target := target, prio := prio, cycle := s.cycle, spare := spare, rd := rd }
    let same := l.asked.any (fun q => q.cycle = s.cycle)
    let base := if same then l.before else l.queue
    let asked := insertBy (·.die) r (if same then l.asked else [])
    let (queue, refused) := enterTurns base asked
    let full := refused.contains r
    let s := s.setLink link { l with
      queue := queue, asked := asked, before := base, auto := l.auto && full, lastTurn := if full then l.lastTurn else s.time }
    let s := ((refused.filter (fun q => q != r && l.queue.contains q))).foldl (fun s q => s.turnStatus q 3) s
    (if full then 3 else if target = n then 0 else 1, s)

/-- TURN (R216, R311): its status returns with the bundle. DESIGN CHOICE, log 34. -/
def execTurn (a b : BitVec 5) (la : BitVec 4) (s : State) : Answer :=
  guarded (.turn a b la) s fun s =>
    let v := (s.rd a).toNat
    let n := v >>> 8 % 16
    let (st, s) := s.requestTurn s.home s.issue.part.spare (v % 64) n ((s.rd b).toNat % 4) a.toNat
    s.wr a (BitVec.ofNat 64 (max 2 (min 14 n) * 256 + st))

/-- What LINKST returns for a die. -/
def State.linkWord (s : State) (link die : Nat) : Word :=
  let l := s.link link
  BitVec.ofNat 64 ((l.carrying (upFrom link die)).length + (if l.turning.isSome then 1 else 0) * 16
    + l.queue.length * 256 + (if l.auto && !l.boundary then 1 else 0) * 4096 + (if l.boundary then 1 else 0) * 8192)

/-- LINKST (R217): it returns with the bundle. -/
def execLinkst (a : BitVec 5) (la : BitVec 4) (s : State) : Answer :=
  guarded (.linkst a la) s fun s => s.wr a (s.linkWord ((s.rd a).toNat % 64) s.home.die)

end Sys2Proof.Machine
end

