-- ==== Sys2Proof/Machine/Ochre.lean ====
section
/-!
DEFINITION. The LK words of the Ochre cores, and the start and end of their threads (R208 to R211, R381).
-/
namespace Sys2Proof.Machine

/-- The Ochre core of the bundle being issued. -/
def State.ochreHere (s : State) : Ochre :=
  match s.issue.part with
  | .ochre d i => s.ochre d i
  | .gang _ _ _ _ => .zero

/-- The state with it replaced. -/
def State.setOchreHere (s : State) (o : Ochre) : State :=
  match s.issue.part with
  | .ochre d i => s.setOchre d i o
  | .gang _ _ _ _ => s

/-- Bytes of a local store. -/
def Ochre.read (o : Ochre) (a n : Nat) : List Byte := (List.range n).map (fun i => ngetD o.store (a + i) 0)

/-- A local store with bytes written. -/
def Ochre.write (o : Ochre) (a : Nat) (l : List Byte) : Ochre :=
  { o with store := (indexed l).foldl (fun m e => nset m (a + e.1) e.2) o.store }

/-- LKFETCH (R210): 16 to 4,096 global bytes on their way to the local store, counted in the core's wc0. -/
def execLkfetch (d a : BitVec 5) (n : BitVec 8) (s : State) : Answer :=
  guarded (.lkfetch d a n) s fun s =>
    (s.begin .gather (.lkfetch (s.rd d).toNat) (sectorPieces (s.rd a).toNat (16 * (n.toNat + 1))) none none 0).2

/-- The entry of the CAM that holds a key (R210). -/
def Ochre.find (o : Ochre) (key : Word) : Option Nat := (o.cam.find? (fun e => e.2 = key)).map (·.1)

/-- LKDEDUP (R210): the entry that holds the key with bit 8 set, else the lowest free of 256 entries, which takes it,
else all ones. -/
def execLkdedup (d a : BitVec 5) (s : State) : Answer :=
  guarded (.lkdedup d a) s fun s =>
    let o := s.ochreHere
    match o.find (s.rd a) with
    | some x => s.wr d (BitVec.ofNat 64 (x + 256))
    | none => match (List.range 256).find? (fun x => (nget o.cam x).isNone) with
      | some x => (s.setOchreHere { o with cam := nset o.cam x (s.rd a) }).wr d (BitVec.ofNat 64 x)
      | none => s.wr d (BitVec.allOnes 64)

/-- LKDEDUP clear (R210). -/
def execLkdedupClear (d a : BitVec 5) (s : State) : Answer :=
  guarded (.lkdedupClear d a) s fun s => (s.setOchreHere { s.ochreHere with cam := [] }).wr d 0

/-- One element of LKPOOL (R210): operation 0 add, 1 max, 2 init on the destination's and the source's bits. The flags of
its rounding go to no ARSTAT. DESIGN CHOICE, log 119. -/
def poolStep (op f : Nat) (dst src : Nat) : Nat :=
  let g := poolDst f
  if isFloatFmt f then
    let x := valOf f src
    let r := match op with
      | 0 => ((valOf g dst).add x 0).1
      | 1 => (Val.pick true (valOf g dst) x).1
      | _ => x
    (roundTo g r 0 false).1
  else
    let a := intOf g dst
    let x := intOf f src
    intBits g (match op with
      | 0 => a + x
      | 1 => max a x
      | _ => x)

/-- LKPOOL (R210): elements in ascending order. -/
def execLkpool (d a b : BitVec 5) (op : BitVec 2) (f : BitVec 4) (s : State) : Answer :=
  guarded (.lkpool d a b op f) s fun s =>
    let w := poolWidth f.toNat
    let dst := (s.rd d).toNat
    let src := (s.rd a).toNat
    s.setOchreHere ((List.range (s.rd b).toNat).foldl (fun o j =>
      o.write (dst + 4 * j) (toBytes 4 (poolStep op.toNat f.toNat (ofBytes (o.read (dst + 4 * j) 4))
        (ofBytes (o.read (src + w * j) w))))) s.ochreHere)

/-- Bytes a request's deliveries may fill, from its destination (R208). -/
def State.deliverySize (s : State) (g : GatherReq) : Nat :=
  match g.ob with
  | none => (s.ctx g.by_.ctx).spadSize
  | some v => obLen v * 64

/-- The place a request's deliveries are counted from: whether the OSB, and the byte of the allocation. -/
def GatherReq.spot (g : GatherReq) (at_ : Nat) : Bool × Nat :=
  match g.ob with
  | none => (false, at_)
  | some v => (true, obBase v * 64 + at_)

/-- The bytes of a delivery that no later request of its context has delivered there, by place (R263). -/
def GatherReq.kept (g : GatherReq) (at_ : Nat) (l : List Byte) : List (Nat × List Byte) :=
  let (osb, p) := g.spot at_
  let hit (x n : Nat) : Bool := g.newer.any (fun o => o.1 = osb && o.2.1 = g.eng && x < o.2.2.1 + o.2.2.2 && o.2.2.1 < x + n)
  if hit p l.length then (indexed l).filterMap (fun b => if hit (p + b.1) 1 then none else some (p + b.1, [b.2]))
  else [(p, l)]

/-- The earlier requests of a context that still run remember what a later one has delivered (R263). -/
def State.noteOver (s : State) (g : GatherReq) (at_ n : Nat) : State :=
  let d := s.die g.by_.ctx.die
  let (osb, p) := g.spot at_
  let add (x : GatherReq) : GatherReq :=
    if x.id < g.id && x.by_.ctx = g.by_.ctx then { x with newer := (osb, g.eng, p, n) :: x.newer } else x
  s.setDie g.by_.ctx.die { d with ochre := d.ochre.map (fun o => (o.1, { o.2 with req := o.2.req.map add })) }

/-- Delivered bytes of a request put in their place. -/
def State.deliver (s : State) (g : GatherReq) (at_ : Nat) (l : List Byte) : State :=
  ((g.kept at_ l).foldl (fun s e => match g.ob with
    | none => s.progSpadPut gatherRank g.by_.ctx g.eng e.1 e.2
    | some _ => s.progOsbPut g.by_.ctx g.eng e.1 e.2) s).noteOver g at_ l.length

/-- LKHAND (R210, R211, R381): local bytes appended to the deliveries; a delivery that leaves the allocation or range
ends the thread with 0x87, puts nothing, and no later word of its bundle delivers (R379). -/
def execLkhand (a b : BitVec 5) (t : BitVec 1) (s : State) : Answer :=
  guarded (.lkhand a b t) s fun s =>
    let o := s.ochreHere
    match o.req with
    | none => s
    | some g =>
      let n := (s.rd b).toNat
      let at_ := g.dst.toNat + o.handed
      if o.done then s
      else if s.deliverySize g < at_ + n then s.setOchreHere { o with done := true, fail := some 0x87 }
      else
        (s.setOchreHere { o with handed := o.handed + n, lasts := o.lasts + t.toNat }).deliver g at_ (o.read (s.rd a).toNat n)

/-! ### Threads (R208, R209) -/

/-- GATHER_REQUEST_START (R208, R209): the request at the head of the die's queue reads its record and starts on the
lowest-numbered idle Ochre core. A record that cannot be translated joins the merge table; one refused or poisoned
ends the request with its own cause, and so does a captured OSB record that is not valid (R377). An ENTRY that is no
multiple of 4 stands in the PC as it is, and each word is read at its address rounded down. DEDUCED, log 43. -/
def execGatherRequestStart (die : Nat) (s : State) : Answer :=
  let d := s.die die
  match d.gq, (List.range 16).find? (fun i => (s.ochre die i).req.isNone) with
  | g :: rest, some i =>
    let part := s.partN die
    let start (s : State) (f : Option (BitVec 8)) (regs : NMap Word) (pc : Word) : State :=
      let s := s.setDie die { s.die die with gq := rest }
      s.setOchre die i { Ochre.zero with
        req := some g, movedAt := s.time, done := f.isSome, fail := f, thread := { Thread.zero with pc := pc, regs := regs } }
    if g.ob.any (fun v => !obValid v (s.ctx g.by_.ctx).osbSize) then .next (start s (some 0x65) [] 0) else
    let (r, s) := s.lookupThread die part g.addr.toNat .read
    match r with
    | .refused c => .next (start s (some c) [] 0)
    | .miss => .next (s.miss die part
        { who := .ochre die i, kind := .read, va := g.addr.toNat, helper := false })
    | .hit m =>
      if s.unitHeld (.ochre die i) .read m g.addr.toNat 64 then .next s else
      match s.readFault part m.pa with
      | some c => .next (start s (some c) [] 0)
      | none =>
        let arg (j : Nat) : Word := BitVec.ofNat 64 (s.mem.num (m.pa + 8 * j) 8)
        let regs := (upto 1 7).map (fun j => (j, arg j))
          ++ [(8, BitVec.ofNat 64 g.eng), (9, BitVec.ofNat 64 (s.homeOf g.by_.ctx).core)]
        .next (start (s.l2Read die m.pa m.cached) none regs (arg 0))
  | _, _ => .next s

/-- Whether every access of a thread has been performed and every byte it fetched has landed. -/
def State.ochreQuiet (s : State) (die i : Nat) : Bool := s.accs.all (fun a => a.who != .ochre die i)

/-- The bytes an Ochre core's deliveries filled. -/
def State.deliveredRun (g : GatherReq) (o : Ochre) : List (Nat × Nat) :=
  if g.ob.isNone && o.handed != 0 then [(g.dst.toNat, o.handed)] else []

/-- OCHRE_THREAD_END (R211, R221, R381): the thread has reached END or stopped and nothing of it is outstanding; wc3
falls and the blocks written advance. END without LKHAND.last, or a second .last, is 0x85; a thread's own cause is
0x86 with its PC and code; a delivery out of range is 0x87, an OSB record not valid 0x65. -/
def execOchreThreadEnd (die idx : Nat) (s : State) : Answer :=
  let s0 := s
  let o := s.ochre die idx
  match o.req with
  | none => .next s
  | some g =>
    if !o.done || !s.ochreQuiet die idx then .next s
    else
      let s := (s.progBump g.by_.ctx g.eng (State.deliveredRun g o)).setOchre die idx .zero
      let s := (s.unlist die (.ochre die idx)).unlistPart (.ochre die idx)
      let p : PartRef := .gang g.by_.ctx.die g.by_.ctx.core g.by_.ctx.ctx false
      let s := s.wcDown p 3
      let s := s.dropArrivals g.by_.ctx g.id (o.fail.getD 0)
      let raised (t : State) : Answer := .next (s0.unitStep t)
      match o.fail with
      | none => raised (if o.lasts = 1 then s else s.raiseBy g.by_ 0x85 3 g.addr g.eng 4)
      | some c =>
        if c = 0x65 then raised (s.raiseBy g.by_ 0x65 3 (BitVec.ofNat 64 g.obN) g.eng 4)
        else if c = 0x87 then raised (s.raiseBy g.by_ 0x87 3 (BitVec.ofNat 64 (max (g.dst.toNat + o.handed) (s.deliverySize g))) g.eng 4)
        else raised (s.raiseBy g.by_ 0x86 3 (BitVec.ofNat 64 (o.thread.pc.toNat % 2 ^ 57 / 4 * 4 * 64 + c.toNat)) g.eng 4)

end Sys2Proof.Machine
end

