-- ==== Sys2Proof/Machine/GlobalMem.lean ====
section
/-!
DEFINITION. Global accesses at their homes and on their way back: loads landing, stores and atomics performed,
acknowledgements and returns (R103, R104, R121, R122, R170 to R174, R220, R246, R247, R258, R259, R392, R395).
-/
namespace Sys2Proof.Machine

/-! ### What lands in registers -/

/-- Bytes of an access written into a tile register of an engine: those of later-issued operations remain (R170). -/
def State.landBytes (s : State) (a : Access) (cl : Cluster) (reg eng off : Nat) (l : List Byte) : State :=
  let c := a.by_.ctx
  let full : TileBits := BitVec.ofNat 16384 ((2 ^ (8 * l.length) - 1) <<< (8 * off))
  let dead := (s.acc a.id).elim 0 (fun b => ngetD b.dead eng 0)
  let m := full &&& ~~~dead
  let x := (s.ctx c).land1 (.tile eng cl reg (BitVec.ofNat 16384 (ofBytes l <<< (8 * off))) m)
  let s := s.setCtx c (x.olderLose a.id false (.tile eng cl reg 0 full))
  s.shadowLoads c a.id (.tile eng cl reg 0 full)

/-- A scalar register written by an access, unless a later word of its bundle wrote it (R102): one issued on the other
side of a trap entry reaches the shadow bank (R350). DEDUCED, log 14. Of a saved program it reaches the register in the
save record. DEDUCED, log 63. -/
def State.landScalar (s : State) (a : Access) (rd : Nat) (v : Word) : State :=
  let t := s.thread a.who
  let gone := match a.who with
    | .gang d c x sp => sp && (s.ctx ⟨d, c, x⟩).spare.isNone
    | .ochre _ _ => false
  let own := rd < 24 || a.by_.inHandler == t.handler.isSome
  if rd = 0 || gone || a.noReg then s
  else
    let s := s.setThread a.who (if own then t.setReg rd v else { t with shadow := nset t.shadow rd v })
    match a.who with
    | .gang d c x sp =>
      let r : CtxRef := ⟨d, c, x⟩
      if r.isSaved then
        s.putVa r.savedPart (s.slotVa r.savedPart x + (if sp then 0x2000 else 0x1000)
          + (if own then 8 * rd else 0x500 + 8 * (rd - 24))) (toBytes 8 v.toNat) (s.ctxTag r)
      else s
    | .ochre _ _ => s

/-- The stores of its own part that a value depends on from now on are added to those of a register, or of the part's tiles
(key 33): what the load has read of them, and what its own address depended on (R269). DEDUCED, log 114. -/
def State.noteDep (s : State) (a : Access) (rd : Nat) (own : List Nat) : State :=
  let l := dedup (own ++ a.after)
  if l.isEmpty || rd = 0 then s
  else
    let t := s.thread a.who
    s.setThread a.who { t with dep := nset t.dep rd (dedup (ngetD t.dep rd [] ++ l)) }

/-- A loaded value as its register takes it (R117). -/
def loadWord (size : Nat) (sgn : Bool) (l : List Byte) : Word :=
  if sgn then sext64 (8 * size) (ofBytes l) else BitVec.ofNat 64 (ofBytes l)

/-! ### Loads -/

/-- A piece of an access replaced. -/
def Access.setPiece (a : Access) (n : Nat) (p : Piece) : Access := { a with pieces := a.pieces.set n p }

/-- One piece of a load takes its value: a line that cannot be read fails it, else its bytes land (R392). -/
def State.landPiece (s : State) (id n : Nat) : State :=
  match s.acc id with
  | none => s
  | some a =>
    match a.pieces[n]?, (a.pieces[n]?).bind (·.pa) with
    | some p, some pa =>
      match s.readFault (s.partN a.who.die) pa with
      | some c => s.setAcc (a.setPiece n { p with st := .failed c })
      | none =>
        let (l, seen) := p.took.getD (s.takeValue a p)
        let own := s.ownOf a seen
        let s := s.setAcc (a.setPiece n { p with st := .acked, data := l })
        let s := (s.noteSeen a.who (s.othersOf a seen)).holdLine (s.seat a.who) pa p.cached
        match a.op with
        | .loadReg rd size sgn => (s.landScalar a rd (loadWord size sgn l)).noteDep a rd own
        | .loadTile cl reg => (s.landBytes a cl reg p.eng p.off l).noteDep a 33 own
        | _ => s
    | _, _ => s

/-- The open pieces of an access that lie in the sector of piece n: a sector goes to its home once (R250). -/
def Access.sector (a : Access) (n : Nat) : List (Nat × Piece) :=
  match (a.pieces[n]?).bind (·.pa) with
  | none => []
  | some pa => (indexed a.pieces).filter (fun e => e.2.isOpen && (e.2.pa.map (· / 64)) == some (pa / 64))

/-- Those that may be performed now: of a store or an atomic all or none (R250, R259). -/
def State.sectorOf (s : State) (a : Access) (n : Nat) : List Nat :=
  let l := a.sector n
  let may := l.filter (fun e => s.mayPerform a e.2)
  if a.op.isLoad || l.length = may.length then may.map (·.1) else []

/-- A load whose sector may not be performed only because of acquires before it takes the values of its pieces: they land
once the acquires are performed, unless an agent these order has written there (R264, R269). -/
def State.takeEarly (s : State) (a : Access) (n : Nat) : State :=
  let l := (a.sector n).filter fun e => e.2.took.isNone && s.mayTake a e.2
    && e.2.pa.any (fun pa => (s.readFault (s.partN a.who.die) pa).isNone)
  l.foldl (fun s e => match s.acc a.id with
    | some b => s.setAcc (b.setPiece e.1 { e.2 with took := some (s.takeValue b e.2) })
    | none => s) s

/-- The stores that an early load is to see enter the L1 store path; an acquire that reaches beyond the core waits for
their homes instead (R267). -/
def State.enterEarly (s : State) (a : Access) (n : Nat) : State :=
  match a.acq with
  | some sc => if sc.wide then s else (a.sector n).foldl (fun s e => s.enterFor a e.2) s
  | none => (a.sector n).foldl (fun s e => s.enterFor a e.2) s

/-- Elements a tile load gives no memory to: skips and a helper's elements that may not be read are zero (R34, R171). -/
def State.landZeros (s : State) (a : Access) : State :=
  match a.op with
  | .loadTile cl reg =>
    a.pieces.foldl (fun s p => match p.st with
      | .performed => s.landBytes a cl reg p.eng p.off p.data
      | .failed _ => if p.helper then s.landBytes a cl reg p.eng p.off (toBytes p.len 0) else s
      | _ => s) s
  | _ => s

/-- A LAUNCH whose record has been read is appended to its queue (R220): all ones while the queue is disabled or full,
else the record stands in the next slot and the write pointer after the append returns. -/
def State.appendLaunch (s : State) (a : Access) (q rd : Nat) : State :=
  let part := s.partN a.who.die
  let lq := ngetD (s.part part).lq q .zero
  if !lq.en || 2 ^ lq.log2.toNat ≤ (lq.wp - lq.rp).toNat then (s.landScalar a rd (BitVec.allOnes 64)).finish a
  else
    let va := lq.base.toNat * 64 + 64 * (lq.wp.toNat % 2 ^ lq.log2.toNat)
    let fail (s : State) (c : BitVec 8) : State :=
      let b := { a with pieces := a.pieces.map (fun p => { p with st := .failed c, va := va }) }
      (s.setAcc b).finish b
    let die := (s.seat a.who).die
    let (r, s) := s.lookupL2 die part va .write
    match r with
    | .miss => s.miss die part { who := .access a.id, kind := .write, va := va, helper := false }
    | .refused c => fail s c
    | .hit m =>
      match s.cutOff part m.pa with
      | some c => fail s c
      | none =>
        let s := s.homeWrite m.pa a.bytes (s.tagOf a.by_)
        let k := s.part part
        let s := s.setPart part { k with lq := nset k.lq q { lq with wp := lq.wp + 1 } }
        (s.landScalar a rd ((lq.wp + 1).setWidth 64)).finish a

/-- A load none of whose pieces waits any more is complete; LDCWT and NODEPUT go on by steps of their own (R104). -/
def State.concludeLoad (s : State) (a : Access) : State :=
  match a.op with
  | .ldcwt _ _ => s
  | .nodeput _ _ => if a.failure.isSome || a.dropped then s.finish a else s
  | .launch q rd => if a.failure.isSome || a.dropped then s.finish a else s.appendLaunch a q rd
  | _ => (s.landZeros a).finish a

/-- The value rd takes from an atomic (R121). -/
def amoReturn (op n : Nat) (old : List Byte) : Word :=
  if n = 8 then BitVec.ofNat 64 (ofBytes old)
  else if op = 1 then BitVec.ofNat 64 (ofBytes old) else sext64 32 (ofBytes old)

/-- The old values of an atomic reach their register or return elements; an element that failed keeps its value. -/
def State.returnOld (s : State) (a : Access) : State :=
  a.pieces.foldl (fun s p => match p.st with
    | .acked => if a.dropped then s else (match a.op with
      | .amo op n rd _ => s.landScalar a rd (amoReturn op n p.old)
      | .vatom _ _ (some (cl, reg)) => s.landBytes a cl reg p.eng p.off p.old
      | _ => s)
    | _ => s) s

/-- Whether an earlier failed access of the context still waits: those that fail complete in issue order (R357). -/
def State.failedBefore (s : State) (a : Access) : Bool :=
  s.accs.any fun b => b.id < a.id && b.ctxOf = a.ctxOf && b.failure.isSome && b.isOpen

/-- A failed access completes; LDCWT does by a step of its own. -/
def State.closeFailed (s : State) (a : Access) : State :=
  match a.op with
  | .ldcwt _ _ => s
  | _ => ((s.returnOld a).landZeros a).finish a

/-- A failed access, and those after it that waited for it alone, complete in issue order (R357). -/
def State.finishFailed (s : State) (a : Access) : State :=
  if s.failedBefore a then s
  else
    let s := s.closeFailed a
    (s.accs.filter (fun b => a.id < b.id && b.ctxOf = a.ctxOf && b.failure.isSome && !b.isOpen)).foldl
      (fun s b => if s.failedBefore b then s else s.closeFailed b) s

/-- An access none of whose pieces waits any more is complete. -/
def State.conclude (s : State) (a : Access) : State :=
  if a.isOpen then s
  else if a.failure.isSome then s.finishFailed a
  else if a.op.isLoad then s.concludeLoad a
  else (s.returnOld a).finish a

/-- GLOBAL_LOAD_SECTOR_LAND (R103, R104, R169, R170): the sector of a load's piece returns, with early taking a value that
the core's L1 store path already shows, or one from before an acquire it stands behind; the last one completes the load. -/
def execGlobalLoadSectorLand (acc piece : Nat) (early : Bool) (s : State) : Answer :=
  match s.acc acc with
  | none => .next s
  | some a =>
    if !a.op.isLoad || (match a.op with | .lkfetch _ => true | _ => false) then .next s
    else
      let s := if a.isOpen then s.touchAll a else s
      let a := (s.acc acc).getD a
      let s := if early then (s.enterEarly a piece).takeEarly a piece else s
      let a := (s.acc acc).getD a
      let s := (s.sectorOf a piece).foldl (fun s n => s.landPiece acc n) s
      match s.acc acc with
      | none => .next s
      | some a => .next (s.conclude a)

/-- LKFETCH_LAND (R210): every byte of an LKFETCH lands in the local store at once. -/
def execLkfetchLand (acc : Nat) (s : State) : Answer :=
  match s.acc acc with
  | none => .next s
  | some a =>
    match a.op, a.who with
    | .lkfetch dst, .ochre d i =>
      let s := s.touchAll a
      let a := (s.acc acc).getD a
      if a.pieces.any (fun p => p.isOpen && (p.pa.isNone || !s.mayPerform a p)) then .next s
      else
        let s := (List.range a.pieces.length).foldl (fun s n =>
          if ((s.acc acc).bind (fun b => b.pieces[n]?)).elim false Piece.isOpen then s.landPiece acc n else s) s
        match s.acc acc with
        | none => .next s
        | some a =>
          if a.failure.isSome then .next (s.finish a)
          else .next ((s.setOchre d i ((s.ochre d i).write dst a.bytes)).finish a)
    | _, _ => .next s

/-! ### Stores and atomics at their homes -/

/-- An operand or old value of n bytes as a signed number. -/
def signedBytes (l : List Byte) : Int := signedOf (8 * l.length) (ofBytes l)

/-- The new value of a scalar atomic (R121): operation numbers 0 ADD, 1 FADD, 2 AND, 3 OR, 4 XOR, 5 MIN, 6 MAX, 7 MINN,
8 MAXN, 9 SWP, 10 CAS. -/
def amoValue (op n : Nat) (old b : List Byte) (cmp : Word) : List Byte :=
  let x := ofBytes old
  let y := ofBytes b
  match op with
  | 0 => toBytes n ((x + y) % 2 ^ (8 * n))
  | 1 => toBytes n (reduceNode 0 (if n = 8 then 0 else 1) false 0 false x y).1
  | 2 => toBytes n (x &&& y)
  | 3 => toBytes n (x ||| y)
  | 4 => toBytes n (x ^^^ y)
  | 5 => if signedBytes b < signedBytes old then b else old
  | 6 => if signedBytes old < signedBytes b then b else old
  | 7 => toBytes n (min x y)
  | 8 => toBytes n (max x y)
  | 9 => b
  | _ => if x = cmp.toNat % 2 ^ (8 * n) then b else old

/-- The new value of a VATOM element (R174): 0 add, 1 min, 2 max, 3 and, 4 or, 5 xor, 6 swp. -/
def vatomValue (op f : Nat) (old b : List Byte) : List Byte :=
  let n := old.length
  let x := ofBytes old
  let y := ofBytes b
  match op with
  | 0 | 1 | 2 => toBytes n (reduceNode op f false 0 false x y).1
  | 3 => toBytes n (x &&& y)
  | 4 => toBytes n (x ||| y)
  | 5 => toBytes n (x ^^^ y)
  | _ => b

/-- What an access writes over the old bytes of a piece. -/
def AccessOp.newBytes (o : AccessOp) (old : List Byte) (p : Piece) : List Byte :=
  match o with
  | .amo op n _ cmp => amoValue op n old p.data cmp
  | .scadd f => toBytes p.len (reduceNode 0 f false 0 false (ofBytes old) (ofBytes p.data)).1
  | .vatom op f _ => vatomValue op f old p.data
  | _ => p.data

/-- The ARSTAT flags of a VATOM's step (R70, R259); scalar atomics and SCADD set none (R122, R173). -/
def AccessOp.flags (o : AccessOp) (old : List Byte) (p : Piece) : Flags :=
  match o with
  | .vatom op f _ => if op ≤ 2 then (reduceNode op f false 0 false (ofBytes old) (ofBytes p.data)).2 else 0
  | _ => 0

/-- The core whose L1 copy a store has updated on its way (R247). -/
def Access.storeCore (a : Access) : Option Nat :=
  match a.op, a.who with
  | .store, .gang d c _ _ => some (coreKey d c)
  | _, _ => none

/-- Whether an operation reads at the home what it writes. -/
def AccessOp.atomic : AccessOp → Bool
  | .amo _ _ _ _ | .vatom _ _ _ | .scadd _ => true
  | _ => false

/-- One piece performed at its home, without the line's whole write: an atomic on a line that cannot be read fails, a
store to a place that cannot be reached fails (R258, R392, R408, R409). early says that what it releases is still to be
performed; one performed early is acknowledged when that is done. -/
def State.performPiece (s : State) (early : Bool) (id n : Nat) : State :=
  match s.acc id with
  | none => s
  | some a =>
    match a.pieces[n]?, (a.pieces[n]?).bind (·.pa) with
    | some p, some pa =>
      let part := s.partN a.who.die
      if p.isEarly then s.setAcc (a.setPiece n { p with st := .acked })
      else match if a.op.atomic then s.readFault part pa else s.cutOff part pa with
      | some c => s.setAcc (a.setPiece n { p with st := .failed c })
      | none =>
        let old := s.mem.read pa p.len
        let s := s.homeWriteBy a.storeCore pa (a.op.newBytes old p) (s.tagOf a.by_)
        let s := s.orFlags a.by_.ctx (a.op.flags old p)
        let s := s.setAcc (a.setPiece n { p with st := if early then .early else .acked, old := old })
        if paSpace pa = 2 && !a.op.atomic then
          s.setPart part { s.part part with flush := (s.part part).flush ++ [(a.who, a.path, a.id)] }
        else s
    | _, _ => s

/-- The bytes a sector's pieces leave in a whole line, when a store covers all of it (R170, R391). -/
def wholeLine (line : Nat) (l : List Piece) : Option (List Byte) :=
  let at_ (k : Nat) : Option Byte := l.foldl (fun r p => match p.pa with
    | some pa => if pa ≤ line + k && line + k < pa + p.len then some (at' p.data (line + k - pa) 0) else r
    | none => r) none
  let b := (List.range 64).map at_
  if b.all Option.isSome then some (b.map (·.getD 0)) else none

/-- Pieces of an access performed in their order, those that cover a whole line as one write (R170, R391). -/
def State.performSector (s : State) (early : Bool) (a : Access) (l : List Nat) : State :=
  let ps := (l.filterMap (fun n => a.pieces[n]?)).filter (fun p => !p.isEarly)
  let t := l.foldl (fun s n => s.performPiece early a.id n) s
  match (ps.head?).bind (·.pa) with
  | some pa =>
    match if a.op.atomic then none else wholeLine (pa / 64 * 64) ps with
    | some b => if (s.cutOff (s.partN a.who.die) pa).isSome then t
                else t.homeWriteBy a.storeCore (pa / 64 * 64) b (s.tagOf a.by_)
    | none => t
  | none => t

/-- STORE_PERFORM_AT_HOME (R120, R121, R169 to R174, R246, R247, R259): the open pieces of a sector of a store or atomic
are performed in their order, a sector covered whole as one write; a release whose sector may be performed early is,
unseen by the agents of its scope (R264); a discarded release performs nothing (R395). -/
def execStorePerformAtHome (acc piece : Nat) (s : State) : Answer :=
  match s.acc acc with
  | none => .next s
  | some a =>
    if a.op.isLoad then .next s
    else if a.dropped then .next (s.setAcc { a with pieces := a.pieces.map (fun p => if p.isOpen then { p with st := .acked } else p) })
    else
      let s := if a.isOpen then s.touchAll a else s
      let a := (s.acc acc).getD a
      let l := s.sectorOf a piece
      let e := a.sector piece
      if l.isEmpty && e.all (fun x => !x.2.isEarly && s.mayEarly a x.2) then .next (s.performSector true a (e.map (·.1)))
      else .next (s.performSector false a l)

/-- STORE_ACK (R103, R104, R122): a store, or an atomic that returns nothing, whose every piece its home has
acknowledged, completes. -/
def execStoreAck (acc : Nat) (s : State) : Answer :=
  match s.acc acc with
  | some a => .next (if a.op.isLoad || a.op.returns || a.isOpen then s else s.conclude a)
  | none => .next s

/-- ATOMIC_RETURN (R104, R121, R122, R174). -/
def execAtomicReturn (acc : Nat) (s : State) : Answer :=
  match s.acc acc with
  | some a => .next (if a.op.isLoad || !a.op.returns || a.isOpen then s else s.conclude a)
  | none => .next s

/-- Open pieces of an access that pass a test fail with a code, and the access is complete when none is left. -/
def State.failPieces (s : State) (a : Access) (test : Piece → Bool) (code : BitVec 8) : State :=
  let b := { a with pieces := a.pieces.map (fun p => if p.isOpen && test p then { p with st := .failed code } else p) }
  (s.setAcc b).conclude b

end Sys2Proof.Machine
end

