-- ==== Sys2Proof/Machine/Records.lean ====
section
/-!
DEFINITION. Elements of an OSB range through its record: bits, scales, scaled values and writes (R63, R64, R71, R72,
R168, R418).
-/
namespace Sys2Proof.Machine

/-- The number n bytes from an address up hold in a map of 2 KiB blocks. -/
def blocksNum (m : NMap TileBits) (per e a n : Nat) : Nat :=
  let first := a / 2048
  let count := (a % 2048 + n + 2047) / 2048
  ((List.range count).foldl (fun v i => v + (ngetD m (e * per + first + i) 0).toNat <<< (16384 * i)) 0)
    >>> (8 * (a % 2048)) % 2 ^ (8 * n)

/-- The range of a record in an engine of a program, as a number. -/
def State.rangeNum (s : State) (c : CtxRef) (e : Nat) (r : BitVec 128) : Nat :=
  if c.isSaved then ofBytes (s.progOsb c e (obBase r * 64) (obLen r * 64))
  else blocksNum (s.core c.die c.core).osb 32 e ((s.ctx c).osbBase + obBase r * 64) (obLen r * 64)

/-- Byte of a range that holds element j, or its first one (R63). -/
def rangeByte (f j : Nat) : Nat := if f = 11 then j / 5 else j * fmtWidth f / 8

/-- The bits of element j of a range, for .ter its digit; none where its byte holds no trits (R64, R418). -/
def rangeElem (f v j : Nat) : Option Nat :=
  if f = 11 then
    let b := v >>> (8 * (j / 5)) % 256
    if 243 ≤ b then none else some (at' (tritDigits b) (j % 5) 0)
  else some (v >>> (j * fmtWidth f) % 2 ^ fmtWidth f)

/-- The value of an element's bits; of .ter, of its digit. -/
def elemVal (f b : Nat) : Val := if f = 11 then .ofInt ((b : Int) - 1) else valOf f b

/-- The block scale of element j (R71). -/
def rangeScale (r : BitVec 128) (v j : Nat) : Val :=
  if obBsen r then valOf 2 (v >>> (8 * (obSoff r + 2 * (j / obBlock r))) % 2 ^ 16) else .ofInt 1

/-- The scaled value of an element's bits (R72). -/
def rangeValue (r : BitVec 128) (v j b : Nat) : Val × Flags :=
  scaled (elemVal (obEfmt r) b) (rangeScale r v j) (valOf 1 (obTscale r))

/-- An exact value over the scales of element j; a zero scale is an invalid operation (R72, R168). DEDUCED, log 54. -/
def rangeQuotient (r : BitVec 128) (v j : Nat) (x : Val) : Val × Flags :=
  let (p, f) := (rangeScale r v j).mul (valOf 1 (obTscale r))
  if p.isZero then (.nan false, fNV)
  else
    let (q, g) := x.div p
    (q, f ||| g)

/-- A range with element j replaced; a byte that held no trits keeps trit 0 in its other places (R64). -/
def rangeSet (f v j b : Nat) : Nat :=
  let put (at_ w x : Nat) : Nat := v - ((v >>> at_ % 2 ^ w) <<< at_) + (x % 2 ^ w) <<< at_
  if f = 11 then
    let old := v >>> (8 * (j / 5)) % 256
    let ds := if 243 ≤ old then [1, 1, 1, 1, 1] else tritDigits old
    put (8 * (j / 5)) 8 (tritByte (ds.set (j % 5) b))
  else put (j * fmtWidth f) (fmtWidth f) b

/-- Elements written from index j up into a range of a program; the bytes they touch are written. -/
def State.rangeWrite (s : State) (c : CtxRef) (e : Nat) (r : BitVec 128) (j : Nat) (l : List Nat) : State :=
  if l.isEmpty then s
  else
    let f := obEfmt r
    let v := (indexed l).foldl (fun v p => rangeSet f v (j + p.1) p.2) (s.rangeNum c e r)
    let lo := rangeByte f j
    let hi := (if f = 11 then (j + l.length + 4) / 5 else ((j + l.length) * fmtWidth f + 7) / 8)
    s.progOsbPut c e (obBase r * 64 + lo) (toBytes (hi - lo) (v >>> (8 * lo)))

end Sys2Proof.Machine
end

