-- ==== Sys2Proof/Machine/Vector.lean ====
section
/-!
DEFINITION. The VA and VB operations: arithmetic, compares, selection, bits, conversion, fills, reductions and
transposes (R160 to R166, R374).
-/
namespace Sys2Proof.Machine

/-- An element operation over up to three sources, of latency n (R154, R155). -/
def State.elementwise (s : State) (n : Nat) (cl : Cluster) (f : Slot) (g : Nat → Nat → Nat → Nat × Flags) : State :=
  s.tileResult n cl f fun _ x =>
    let (rows, k, mask) := positions x f
    let (v, fl) := mapElems (fmtWidth f.fmt.toNat) (rows * k) (srcA x cl f) (srcB s x cl f) (srcC x cl f) g
    (v, mask, fl)

/-- Arithmetic on one element: exact and rounded once for floats, exact then wrapped or clamped for integers (R160). -/
def arith (ftz : Bool) (f : Slot) (v : Val → Val → Val → Val × Flags) (i : Int → Int → Int → Int) (x y z : Nat) :
    Nat × Flags :=
  let fm := f.fmt.toNat
  let sat := f.sat = 1
  if isFloatFmt fm then
    roundFtz ftz fm (v (readFtz ftz fm x) (readFtz ftz fm y) (readFtz ftz fm z)) f.rm.toNat sat
  else intOut fm sat (i (intOf fm x) (intOf fm y) (intOf fm z))

/-- x × y + z rounded once; neg negates the product. DEDUCED, log 56. -/
def Val.fma (x y z : Val) (neg : Bool) (rm : Nat) : Val × Flags :=
  let (p, f) := x.mul y
  let (v, g) := (if neg then p.neg else p).add z rm
  (v, f ||| g)

/-- The magnitude of a value. -/
def Val.abs : Val → Val
  | .nan s => .nan s
  | .inf _ => .inf false
  | .fin _ m e => .fin false m e

/-- One operand's value with the flag of a signalling NaN (R62). -/
def Val.quiet (x : Val) : Val × Flags := if x.isNan then nanOf [x] else (x, 0)

/-- Every bit of an element, or none (R161). -/
def allBits (w : Nat) (b : Bool) : Nat := if b then 2 ^ w - 1 else 0

/-- A compare of one element: 0 equal, 1 less, 2 less or equal (R161). -/
def compareElem (ftz : Bool) (f : Slot) (rel x y : Nat) : Nat × Flags :=
  let fm := f.fmt.toNat
  let w := fmtWidth fm
  let holds (c : Int) : Bool := if rel = 0 then c = 0 else if rel = 1 then c < 0 else c ≤ 0
  if isFloatFmt fm then
    let a := readFtz ftz fm x
    let b := readFtz ftz fm y
    if a.isNan || b.isNan then (0, if rel != 0 || a.sigNan || b.sigNan then fNV else 0)
    else (allBits w (holds (a.cmp b)), 0)
  else
    let d := intOf fm x - intOf fm y
    (allBits w (holds d), 0)

/-- A shift of one element: 0 left, 1 right with zeros, 2 right with the sign (R162), the top bit of an element of .n8 too.
DESIGN CHOICE, log 121. -/
def shiftElem (w op x y : Nat) : Nat :=
  let sign := x >>> (w - 1) % 2 = 1
  if op = 0 then (if y < w then (x <<< y) % 2 ^ w else 0)
  else if op = 1 then (if y < w then x >>> y else 0)
  else if y < w then (x >>> y) + (if sign then 2 ^ w - 2 ^ (w - y) else 0)
  else allBits w sign

/-! ### Element-wise operations -/

/-- VADD (R160). -/
def execVadd (cl : Cluster) (f : Slot) (s : State) : Answer :=
  guarded (.vadd cl f) s fun s => s.elementwise 2 cl f
    (arith s.issue.ftz f (fun x y _ => x.add y f.rm.toNat) (fun x y _ => x + y))

/-- VSUB (R160). -/
def execVsub (cl : Cluster) (f : Slot) (s : State) : Answer :=
  guarded (.vsub cl f) s fun s => s.elementwise 2 cl f
    (arith s.issue.ftz f (fun x y _ => x.add y.neg f.rm.toNat) (fun x y _ => x - y))

/-- VMUL (R160). -/
def execVmul (cl : Cluster) (f : Slot) (s : State) : Answer :=
  guarded (.vmul cl f) s fun s => s.elementwise 2 cl f
    (arith s.issue.ftz f (fun x y _ => x.mul y) (fun x y _ => x * y))

/-- VFMA (R160). -/
def execVfma (cl : Cluster) (f : Slot) (s : State) : Answer :=
  guarded (.vfma cl f) s fun s => s.elementwise 4 cl f
    (arith s.issue.ftz f (fun x y z => x.fma y z false f.rm.toNat) (fun x y z => x * y + z))

/-- VFMS (R160). -/
def execVfms (cl : Cluster) (f : Slot) (s : State) : Answer :=
  guarded (.vfms cl f) s fun s => s.elementwise 4 cl f
    (arith s.issue.ftz f (fun x y z => x.fma y z.neg false f.rm.toNat) (fun x y z => x * y - z))

/-- VFNMA (R160). -/
def execVfnma (cl : Cluster) (f : Slot) (s : State) : Answer :=
  guarded (.vfnma cl f) s fun s => s.elementwise 4 cl f
    (arith s.issue.ftz f (fun x y z => x.fma y z true f.rm.toNat) (fun x y z => -(x * y) + z))

/-- VMIN (R73, R160). -/
def execVmin (cl : Cluster) (f : Slot) (s : State) : Answer :=
  guarded (.vmin cl f) s fun s => s.elementwise 2 cl f
    (fun x y _ => reduceNode 1 f.fmt.toNat s.issue.ftz 0 false x y)

/-- VMAX (R73, R160). -/
def execVmax (cl : Cluster) (f : Slot) (s : State) : Answer :=
  guarded (.vmax cl f) s fun s => s.elementwise 2 cl f
    (fun x y _ => reduceNode 2 f.fmt.toNat s.issue.ftz 0 false x y)

/-- VABS (R160). -/
def execVabs (cl : Cluster) (f : Slot) (s : State) : Answer :=
  guarded (.vabs cl f) s fun s => s.elementwise 2 cl f
    (arith s.issue.ftz f (fun x _ _ => x.abs.quiet) (fun x _ _ => x.natAbs))

/-- VNEG (R160). -/
def execVneg (cl : Cluster) (f : Slot) (s : State) : Answer :=
  guarded (.vneg cl f) s fun s => s.elementwise 2 cl f
    (arith s.issue.ftz f (fun x _ _ => x.neg.quiet) (fun x _ _ => -x))

/-- VMOV: a copy of bits (R62, R158). -/
def execVmov (cl : Cluster) (f : Slot) (s : State) : Answer :=
  guarded (.vmov cl f) s fun s => s.elementwise 2 cl f (fun x _ _ => (x, 0))

/-- VSEL (R161). -/
def execVsel (cl : Cluster) (f : Slot) (s : State) : Answer :=
  guarded (.vsel cl f) s fun s => s.elementwise 2 cl f (fun x y z => (if z != 0 then x else y, 0))

/-- VCMPEQ (R161). -/
def execVcmpeq (cl : Cluster) (f : Slot) (s : State) : Answer :=
  guarded (.vcmpeq cl f) s fun s => s.elementwise 2 cl f (fun x y _ => compareElem s.issue.ftz f 0 x y)

/-- VCMPLT (R161). -/
def execVcmplt (cl : Cluster) (f : Slot) (s : State) : Answer :=
  guarded (.vcmplt cl f) s fun s => s.elementwise 2 cl f (fun x y _ => compareElem s.issue.ftz f 1 x y)

/-- VCMPLE (R161). -/
def execVcmple (cl : Cluster) (f : Slot) (s : State) : Answer :=
  guarded (.vcmple cl f) s fun s => s.elementwise 2 cl f (fun x y _ => compareElem s.issue.ftz f 2 x y)

/-- VCLAMP (R161). -/
def execVclamp (cl : Cluster) (f : Slot) (s : State) : Answer :=
  guarded (.vclamp cl f) s fun s => s.elementwise 2 cl f fun x y z =>
    let (v, g) := reduceNode 2 f.fmt.toNat s.issue.ftz 0 false x y
    let (r, h) := reduceNode 1 f.fmt.toNat s.issue.ftz 0 false v z
    (r, g ||| h)

/-! ### Bits (R162) -/

/-- A bitwise operation on every byte the positions cover. -/
def State.bitwise (s : State) (cl : Cluster) (f : Slot) (g : Nat → Nat → Nat) : State :=
  s.tileResult 2 cl f fun _ x =>
    let (_, _, mask) := positions x f
    (g (srcA x cl f) (srcB s x cl f), mask, 0)

/-- VAND (R162). -/
def execVand (cl : Cluster) (f : Slot) (s : State) : Answer :=
  guarded (.vand cl f) s fun s => s.bitwise cl f (fun x y => x &&& y)

/-- VOR (R162). -/
def execVor (cl : Cluster) (f : Slot) (s : State) : Answer :=
  guarded (.vor cl f) s fun s => s.bitwise cl f (fun x y => x ||| y)

/-- VXOR (R162). -/
def execVxor (cl : Cluster) (f : Slot) (s : State) : Answer :=
  guarded (.vxor cl f) s fun s => s.bitwise cl f (fun x y => x ^^^ y)

/-- VNOT (R162). -/
def execVnot (cl : Cluster) (f : Slot) (s : State) : Answer :=
  guarded (.vnot cl f) s fun s => s.bitwise cl f (fun x _ => 2 ^ 16384 - 1 - x)

/-- VSHL (R162). -/
def execVshl (cl : Cluster) (f : Slot) (s : State) : Answer :=
  guarded (.vshl cl f) s fun s => s.elementwise 2 cl f (fun x y _ => (shiftElem (fmtWidth f.fmt.toNat) 0 x y, 0))

/-- VSHR (R162). -/
def execVshr (cl : Cluster) (f : Slot) (s : State) : Answer :=
  guarded (.vshr cl f) s fun s => s.elementwise 2 cl f (fun x y _ => (shiftElem (fmtWidth f.fmt.toNat) 1 x y, 0))

/-- VSHA (R162). -/
def execVsha (cl : Cluster) (f : Slot) (s : State) : Answer :=
  guarded (.vsha cl f) s fun s => s.elementwise 2 cl f (fun x y _ => (shiftElem (fmtWidth f.fmt.toNat) 2 x y, 0))

/-! ### Conversion (R78, R163, R374) -/

/-- Bytes of a row of n elements of a format, the last byte counted whole (R163). -/
def rowBytes (f n : Nat) : Nat := if f = 11 then (n + 4) / 5 else (n * fmtWidth f + 7) / 8

/-- One element converted: a float through round_to, an integer into an integer by wrap or clamp (R67, R68, R78). -/
def convertVal (ftz : Bool) (f rm : Nat) (sat : Bool) (src : Nat) (v : Val) : Nat × Flags :=
  if isFloatFmt src then
    roundFtz ftz f (if f = 12 then (v, 0) else v.quiet) rm sat
  else if 6 ≤ f && f ≤ 10 then
    match v with
    | .fin n m e => intOut f sat (scaleTo n m e 0)
    | _ => (0, 0)
  else roundFtz ftz f (v, 0) rm sat

/-- Element c of row i of a source of a format, rows of so many bytes; none where its byte holds no trits (R374). -/
def sourceElem (ftz : Bool) (f rb v i c : Nat) : Option Val :=
  if f = 11 then
    let b := v >>> (8 * (i * rb + c / 5)) % 256
    if 243 ≤ b then none else some (.ofInt ((at' (tritDigits b) (c % 5) 0 : Nat) - 1))
  else some (readFtzAny ftz f (v >>> (8 * i * rb + c * fmtWidth f) % 2 ^ fmtWidth f))
where
  /-- A value read under FTZ; integer formats have no subnormals. -/
  readFtzAny (ftz : Bool) (f v : Nat) : Val := if isFloatFmt f then readFtz ftz f v else valOf f v

/-- Elements grouped into trit bytes; the last byte's missing positions are trit 0. -/
def tritBytes : Nat → List Nat → List Nat
  | 0, _ => []
  | _, [] => []
  | n + 1, l => tritByte ((l.take 5) ++ List.replicate (5 - (l.take 5).length) 1) :: tritBytes n (l.drop 5)

/-- The layout of a conversion: elements of a row, source row bytes, destination row bytes (R163). -/
def convertLayout (x : Engine) (f : Slot) : Nat × Nat × Nat × Nat :=
  let (rows, rb) := slotShape x f
  let src := f.md.toNat % 16
  let dst := f.fmt.toNat
  let n := rowElems (if width10 dst ≤ width10 src then src else dst) rb
  (rows, n, rowBytes src n, rowBytes dst n)

/-- The result of a conversion in one engine: bits, mask and flags. A helper reads a byte without trits as trits 0. -/
def convertTile (ftz helper : Bool) (x : Engine) (f : Slot) (v : Nat) : Nat × TileBits × Flags :=
  let (rows, n, rs, rd) := convertLayout x f
  let src := f.md.toNat % 16
  let dst := f.fmt.toNat
  let cells := (List.range rows).map fun i => (List.range n).map fun c =>
    match sourceElem ftz src rs v i c with
    | some y => (convertVal ftz dst f.rm.toNat (f.sat = 1) src y, true)
    | none => (convertVal ftz dst f.rm.toNat (f.sat = 1) src (.ofInt 0), helper)
  let w := if dst = 11 then 8 else fmtWidth dst
  let row (l : List ((Nat × Flags) × Bool)) : Nat × Nat :=
    if dst = 11 then
      (joinElems 8 (tritBytes rd (l.map (fun p => p.1.1))),
       joinElems 8 ((List.range rd).map (fun b => if (at' l (5 * b) ((0, 0), true)).2 then 255 else 0)))
    else
      let kept := joinElems w (l.map (fun p => if p.2 then 0 else 2 ^ w - 1))
      (joinElems w (l.map (fun p => p.1.1)), 2 ^ (8 * rd) - 1 - kept)
  let rowsOut := cells.map row
  (joinElems (8 * rd) (rowsOut.map (·.1)), BitVec.ofNat 16384 (joinElems (8 * rd) (rowsOut.map (·.2))),
   cells.foldl (fun a l => l.foldl (fun a p => if p.2 then a ||| p.1.2 else a) a) 0)

/-- The first source byte of an engine that holds no trits, in row-major order (R374). -/
def firstBadTrit (x : Engine) (f : Slot) (v : Nat) : Option Nat :=
  if f.md.toNat % 16 = 11 then
    let (rows, n, rs, _) := convertLayout x f
    (List.range (rows * ((n + 4) / 5))).find? (fun b => 243 ≤ v >>> (8 * (b / ((n + 4) / 5) * rs + b % ((n + 4) / 5))) % 256)
  else none

/-- The first engine among the active lanes for which something is found, with it. -/
def State.firstLane (s : State) (g : Nat → Engine → Option Nat) : Option (Nat × Nat) :=
  s.activeLanes.findSome? (fun e => (g e (s.tileCtx.engine e)).map (fun k => (e, k)))

/-- An element cause of kind 2 that names an engine and an index (R187, R374, R418). -/
def State.elementCause (s : State) (code : BitVec 8) (o : Option (Nat × Nat)) : State :=
  match o with
  | some (e, k) => s.raiseBy s.issuer code 2 (BitVec.ofNat 64 (e * 2 ^ 16 + k % 2 ^ 11)) e
  | none => s

/-- VCVT (R163). -/
def execVcvt (cl : Cluster) (f : Slot) (s : State) : Answer :=
  guarded (.vcvt cl f) s fun s =>
    let t := s.tileResult 3 cl f fun e x => convertTile s.issue.ftz (s.tileCtx.helper e) x f (srcA x cl f)
    t.elementCause 0x24 (s.firstLane fun _ x => firstBadTrit x f (srcA x cl f))

/-! ### Fills (R164) -/

/-- A tile made element by element from row and column. -/
def State.fillTile (s : State) (cl : Cluster) (f : Slot) (g : Engine → Nat → Nat → Nat → Nat × Flags) : State :=
  s.tileResult 2 cl f fun _ x =>
    let (rows, n, mask) := positions x f
    let r := (List.range (rows * n)).map (fun k => g x n (k / n) (k % n))
    (joinElems (fmtWidth f.fmt.toNat) (r.map (·.1)), mask, r.foldl (fun a p => a ||| p.2) 0)

/-- VBCAST (R164). -/
def execVbcast (cl : Cluster) (f : Slot) (s : State) : Answer :=
  guarded (.vbcast cl f) s fun s =>
    let w := fmtWidth f.fmt.toNat
    s.fillTile cl f fun x n i c =>
      if f.kind = 0 then
        (srcA x cl f >>> ((if bitOf f.md 0 then i * n else c) * w) % 2 ^ w, 0)
      else (srcB s x cl f % 2 ^ w, 0)

/-- VIOTA's base: the 32-bit value of the literal or the engine scalar, read signed (R164). -/
def iotaBase (s : State) (x : Engine) (f : Slot) : Int :=
  if f.kind = 1 then (s.lit f.lit.toNat).toInt
  else if f.kind = 3 then ((x.scalar (f.srcb.toNat % 16)).setWidth 32).toInt
  else 0

/-- VIOTA (R164). -/
def execViota (cl : Cluster) (f : Slot) (s : State) : Answer :=
  guarded (.viota cl f) s fun s =>
    let fm := f.fmt.toNat
    s.fillTile cl f fun x n i c =>
      convertVal s.issue.ftz fm f.rm.toNat (f.sat = 1) 6 (.ofInt (iotaBase s x f + (i * n + c : Nat)))

/-! ### Tile reductions and transposes (R77, R165, R166) -/

/-- A reduction of rows or of columns: op 0 sum, 2 maximum. -/
def State.reduceTile (s : State) (cl : Cluster) (f : Slot) (op : Nat) (cols : Bool) : State :=
  s.tileResult 4 cl f fun _ x =>
    let fm := f.fmt.toNat
    let w := fmtWidth fm
    let (rows, n, _) := positions x f
    let a := srcA x cl f
    let el (i c : Nat) : Option Nat := some (a >>> ((i * n + c) * w) % 2 ^ w)
    let node := reduceNode op fm s.issue.ftz f.rm.toNat (f.sat = 1)
    let out := (List.range (if cols then n else rows)).map fun k =>
      let l := if cols then (List.range rows).map (fun i => el i k) else (List.range n).map (fun c => el k c)
      let (r, fl) := tree node 10 l
      ((if cols then k else k * n) * w, r.getD 0 % 2 ^ w, fl)
    (out.foldl (fun v p => v ||| p.2.1 <<< p.1) 0,
     BitVec.ofNat 16384 (out.foldl (fun m p => m ||| (2 ^ w - 1) <<< p.1) 0),
     out.foldl (fun g p => g ||| p.2.2) 0)

/-- VRSUM (R165). -/
def execVrsum (cl : Cluster) (f : Slot) (s : State) : Answer :=
  guarded (.vrsum cl f) s fun s => s.reduceTile cl f 0 false

/-- VCSUM (R165). -/
def execVcsum (cl : Cluster) (f : Slot) (s : State) : Answer :=
  guarded (.vcsum cl f) s fun s => s.reduceTile cl f 0 true

/-- VRMAX (R165). -/
def execVrmax (cl : Cluster) (f : Slot) (s : State) : Answer :=
  guarded (.vrmax cl f) s fun s => s.reduceTile cl f 2 false

/-- VCMAX (R165). -/
def execVcmax (cl : Cluster) (f : Slot) (s : State) : Answer :=
  guarded (.vcmax cl f) s fun s => s.reduceTile cl f 2 true

/-- VTRN (R166): a helper whose derived shape is not legal keeps its tile (R373). -/
def execVtrn (cl : Cluster) (f : Slot) (s : State) : Answer :=
  guarded (.vtrn cl f) s fun s => s.tileResult 4 cl f fun _ x =>
    let w := fmtWidth f.fmt.toNat
    let (rows, n, mask) := positions x f
    let (r, b) := trnShape x f
    let a := srcA x cl f
    if derivedOk r b then
      (joinElems w ((List.range (rows * n)).map (fun k => a >>> ((k % rows * n + k / rows) * w) % 2 ^ w)), mask, 0)
    else (0, 0, 0)

end Sys2Proof.Machine
end

