-- ==== Sys2Proof/Machine/TileMem.lean ====
section
/-!
DEFINITION. The MEM operations: rows of scratchpads and of cluster windows, OSB ranges through their records, and
global tile memory (R167 to R174, R250, R254 to R257, R304).
-/
namespace Sys2Proof.Machine

/-- The aligned 64-byte sectorRuns a run of bytes touches, each with the part of the run in it. -/
def sectorRuns (a n : Nat) : List (Nat × Nat) :=
  if n = 0 then []
  else (upto (a / 64) ((a + n - 1) / 64 - a / 64 + 1)).map fun k =>
    let lo := max a (64 * k)
    (lo, min (a + n) (64 * k + 64) - lo)

/-! ### Window stores on their way (R256, R301, R304) -/

/-- A window store's write: core, engine, scratchpad byte and bytes. -/
abbrev WindowWrite := Nat × Nat × Nat × List Byte

/-- The number that stands for the scratchpad region of a save record in place of a core's (R296). -/
def savedWindow (part slot : Nat) : Nat := 1024 + part * 65536 + slot

/-- The block counters a write advances: core, engine and block. -/
def writeBlocks (w : WindowWrite) : List (Nat × Nat × Nat) :=
  (blocksOf w.2.2.1 w.2.2.2.length).map (fun b => (w.1, w.2.1, b))

/-- Writes of one window store performed; the counters of their blocks advance but for those left: a store's when its last
write to the block is performed, a copy's at its first (R230). DEDUCED, log 53. -/
def State.performWrites (s : State) (rank die : Nat) (l : List WindowWrite) (left : List (Nat × Nat × Nat)) : State :=
  let s := l.foldl (fun s w =>
    if w.1 < 1024 then s.spadPutBy rank die w.1 w.2.1 w.2.2.1 w.2.2.2
    else s.progSpadPut rank (savedPlace ((w.1 - 1024) / 65536) ((w.1 - 1024) % 65536)) w.2.1 w.2.2.1 w.2.2.2) s
  ((dedup ((l.filter (·.1 < 1024)).flatMap (fun w => (writeBlocks w).map (fun b => b.1 * 65536 + b.2.1 * 256 + b.2.2)))).filter
    (fun k => !left.contains (k / 65536, k / 256 % 256, k % 256))).foldl
    (fun s k => s.bump die (k / 65536) (k / 256 % 256) [k % 256]) s

/-- The transfers of a part's window stores still to be written, in issue order. -/
def State.ownStores (s : State) (p : PartRef) (cluster : Nat) : List IndigoTransfer :=
  let k := s.indigo p.die cluster
  (k.flying ++ k.waiting).filter (fun t => t.who = p && !t.copy && !t.writes.isEmpty)

/-- A part's earlier window stores that meet its new scratchpad access are performed first (R256). -/
def State.settleStores (s : State) (p : PartRef) (cluster : Nat) (runs : List (Nat × Nat × Nat × Nat)) : State :=
  let own := s.ownStores p cluster
  let meets (w : WindowWrite) : Bool :=
    runs.any (fun r => r.1 = w.1 && r.2.1 = w.2.1 && r.2.2.1 < w.2.2.1 + w.2.2.2.length && w.2.2.1 < r.2.2.1 + r.2.2.2)
  if own.any (fun t => t.writes.any meets) then
    let s := (dedup (own.map (·.id))).foldl
      (fun s id => s.performWrites (tileRank p) p.die ((own.filter (fun t => t.id = id)).flatMap (·.writes)) []) s
    let k := s.indigo p.die cluster
    let clear (t : IndigoTransfer) : IndigoTransfer := if t.who = p && !t.copy then { t with writes := [] } else t
    s.setIndigo p.die cluster { k with waiting := k.waiting.map clear, flying := k.flying.map clear }
  else s

/-- A piece of a window access: the other end's position, the engine it serves, its place, and bytes to store. -/
structure WindowPiece where
  pos : Nat
  eng : Nat
  place : Nat × Nat × Nat
  bytes : List Byte
  deriving DecidableEq, Repr

/-- The pieces of a window store without the bytes that a later one of it writes, in engine and row order (R167). -/
def keepLast : List WindowPiece → List WindowPiece
  | [] => []
  | p :: r =>
    let (core, eng, a) := p.place
    let later (x n : Nat) : Bool := r.any fun q =>
      q.place.1 = core && q.place.2.1 = eng && q.place.2.2 < x + n && x < q.place.2.2 + q.bytes.length
    let mine := if later a p.bytes.length then (indexed p.bytes).filterMap fun b =>
        if later (a + b.1) 1 then none else some { p with place := (core, eng, a + b.1), bytes := [b.2] }
      else [p]
    mine ++ keepLast r

/-- The transfers of a window access: for each other end, the k-th sector of every engine travels together (R301). -/
def windowTransfers (id : Nat) (who : PartRef) (pos : Nat) (store : Bool) (now : Nat) (l : List WindowPiece) :
    List IndigoTransfer :=
  (List.range 4).flatMap fun q =>
    let mine := (if store then keepLast l else l).filter (fun p => p.pos = q)
    let keys (e : Nat) : List (Nat × Nat × Nat) :=
      (mine.filter (fun p => p.eng = e)).foldl (fun r p =>
        let k := (p.place.1, p.place.2.1, p.place.2.2 / 64)
        if r.contains k then r else r ++ [k]) []
    let per := (List.range 16).map (fun e => (e, keys e))
    (List.range (per.foldl (fun n p => max n p.2.length) 0)).map fun k =>
      { id := id, who := who, src := if store then pos else q,
        dsts := if store then 1#4 <<< q else 1#4 <<< pos, readyAt := now, landsAt := none,
        writes := if store then per.flatMap (fun p => (mine.filter (fun x => x.eng = p.1
            && (p.2[k]?) == some (x.place.1, x.place.2.1, x.place.2.2 / 64))).map
              (fun x => (x.place.1, x.place.2.1, x.place.2.2, x.bytes)))
          else []
        reads := if store then [] else per.filterMap (fun p => p.2[k]?) }

/-- A word of a slot table (R302): owned, its source, its receivers. -/
def slotOwned (w : BitVec 32) : Bool := bitOf w 6
def slotSrc (w : BitVec 32) : Nat := (w.extractLsb' 4 2).toNat
def slotMask (w : BitVec 32) : BitVec 4 := w.extractLsb' 0 4

/-- Whether a table's word may carry a transfer as an owned slot of its source. -/
def slotCovers (w : BitVec 32) (t : IndigoTransfer) : Bool :=
  slotOwned w && slotSrc w = t.src && (t.dsts &&& ~~~(slotMask w)) == 0

/-- A transfer serving another's readers too. -/
def IndigoTransfer.with (u t : IndigoTransfer) : IndigoTransfer :=
  { u with dsts := u.dsts ||| t.dsts, also := u.also ++ (t.who, t.id) :: t.also }

/-- A transfer joins a cluster's: one that waits, carries the same sectors of one source engine, fell ready in this period,
and has an owned slot that covers the readers of both, delivers to all of them (R304). -/
def Indigo.join (k : Indigo) (from_ : Nat) (t : IndigoTransfer) : Indigo :=
  let period (u : IndigoTransfer) : Nat := (u.readyAt - from_) / 5120
  let same (u : IndigoTransfer) : Bool :=
    !t.reads.isEmpty && u.reads = t.reads && u.src = t.src && period u = period t
      && k.table.any (fun w => slotCovers w (u.with t))
  match k.waiting.find? same with
  | some u => { k with waiting := k.waiting.map (fun x => if x = u then u.with t else x) }
  | none => { k with waiting := k.waiting ++ [t] }

/-- Transfers join the cluster's. -/
def State.pushTransfers (s : State) (die cluster : Nat) (l : List IndigoTransfer) : State :=
  if l.isEmpty then s
  else s.setIndigo die cluster (l.foldl (fun k t => k.join s.readyAt t) (s.indigo die cluster))

/-- Whether a transfer of a command or access is still on its way. -/
def State.onWay (s : State) (die cluster id : Nat) : Bool :=
  let k := s.indigo die cluster
  (k.waiting ++ k.flying).any (fun t => t.id = id || t.also.any (fun a => a.2 = id))

/-- Cluster of a core (R16). -/
def clusterOf (core : Nat) : Nat := core / 16 * 4 + core % 8 / 2

/-! ### Scratchpad rows (R167, R255) -/

/-- Core, engine and scratchpad byte of row i of a row access, where it may be made. -/
def State.rowPlace (s : State) (f : Slot) (e : Nat) (x : Engine) (i : Nat) : Option (Nat × Nat × Nat) :=
  let rb := (slotShape x f).2
  let a := rowAddr s x f i
  if f.fmt.toNat < 10 && a.toNat % (fmtWidth f.fmt.toNat / 8) != 0 then none
  else if bitOf f.md 0 then (if 0 ≤ a then s.windowAt s.home a.toNat rb else none)
  else if within a rb s.tileCtx.spadSize then some (s.home.core, e, s.tileCtx.spadBase + a.toNat)
  else none

/-- The rows of a scratchpad access: engine, row, row bytes and place. -/
def State.rowRuns (s : State) (f : Slot) (engs : List Nat) : List (Nat × Nat × Nat × Nat × Nat × Nat) :=
  engs.flatMap fun e =>
    let x := s.tileCtx.engine e
    let (rows, rb) := slotShape x f
    (List.range rows).filterMap fun i => (s.rowPlace f e x i).map (fun p => (e, i, rb, p.1, p.2.1, p.2.2))

/-- The window pieces of rows. -/
def rowPieces (rows : List (Nat × Nat × Nat × Nat × Nat × Nat)) (data : Nat → Nat → List Byte) : List WindowPiece :=
  rows.flatMap fun (e, i, rb, core, eng, a) =>
    (sectorRuns a rb).map fun p =>
      { pos := corePos core, eng := e, place := (core, eng, p.1), bytes := ((data e i).drop (p.1 - a)).take p.2 }

/-- Bytes of row i of the data register of an engine. -/
def State.rowData (s : State) (f : Slot) (e i : Nat) : List Byte :=
  let x := s.tileCtx.engine e
  let rb := (slotShape x f).2
  toBytes rb ((srcC x (slotCluster f) f >>> (8 * i * rb)) % 2 ^ (8 * rb))

/-- LDS (R167): own rows or window rows; a helper's row that may not be read is zero. DESIGN CHOICE, log 50. -/
def execLds (f : Slot) (s : State) : Answer :=
  guarded (.lds f) s fun s =>
    let h := s.home
    let runs := s.rowRuns f s.acting
    let s := s.settleStores s.issue.part (clusterOf h.core) (runs.map (fun (_, _, rb, c, g, a) => (c, g, a, rb)))
    let id := s.nextId
    let t := s.tileResult 3 (slotCluster f) f fun e x =>
      let (rows, rb) := slotShape x f
      (joinElems (8 * rb) ((List.range rows).map fun i => match s.rowPlace f e x i with
        | some (core, eng, a) => blocksNum (s.core h.die core).spad 128 eng a rb
        | none => 0), coverMask (rows * rb), 0)
    if bitOf f.md 0 then
      t.pushTransfers h.die (clusterOf h.core)
        (windowTransfers id s.issue.part (corePos h.core) false s.time (rowPieces runs (fun _ _ => [])))
    else t

/-- STS (R167): the active lanes' rows, in engine and row order; window rows travel on the Indigo plane (R304).
DEDUCED, log 12. -/
def execSts (f : Slot) (s : State) : Answer :=
  guarded (.sts f) s fun s =>
    let h := s.home
    let runs := s.rowRuns f s.activeLanes
    let s := s.settleStores s.issue.part (clusterOf h.core) (runs.map (fun (_, _, rb, c, g, a) => (c, g, a, rb)))
    if bitOf f.md 0 then
      let (id, t) := s.fresh
      t.pushTransfers h.die (clusterOf h.core)
        (windowTransfers id s.issue.part (corePos h.core) true s.time (rowPieces runs (fun e i => s.rowData f e i)))
    else s.performWrites (tileRank s.issue.part) h.die (runs.map (fun (e, i, _, c, g, a) => (c, g, a, s.rowData f e i))) []

/-! ### OSB ranges (R168, R377, R418) -/

/-- One position of LDO: the value rounded, whether the position is written, with flags. -/
def ldoElem (f : Slot) (helper : Bool) (r : BitVec 128) (v j : Nat) : Nat × Bool × Flags :=
  let sat := f.sat = 1
  let fm := f.fmt.toNat
  let out (b : Nat) : Nat × Bool × Flags :=
    let (x, g) := rangeValue r v j b
    let (y, h) := roundTo fm x f.rm.toNat sat
    (y, true, g ||| h)
  match rangeElem (obEfmt r) v j with
  | some b => out b
  | none => if helper then out 1 else (0, false, 0)

/-- LDO (R168). -/
def execLdo (f : Slot) (s : State) : Answer :=
  guarded (.ldo f) s fun s =>
    let h := s.home
    let w := fmtWidth f.fmt.toNat
    let cells (e : Nat) (x : Engine) : List (Nat × Bool × Flags) :=
      let r := x.record (f.srcb.toNat % 8)
      let (rows, n, _) := positions x f
      let ok := obValid r s.tileCtx.osbSize
      let v := if ok then s.rangeNum h e r else 0
      (List.range (rows * n)).map fun k =>
        let j := osbIndex s x f k
        if ok && 0 ≤ j && j < obCount r then ldoElem f (s.tileCtx.helper e) r v j.toNat else (0, true, 0)
    let t := s.tileResult 3 (slotCluster f) f fun e x =>
      let l := cells e x
      (joinElems w (l.map (·.1)), BitVec.ofNat 16384 (joinElems w (l.map (fun p => if p.2.1 then 2 ^ w - 1 else 0))),
       l.foldl (fun a p => a ||| p.2.2) 0)
    t.elementCause 0x24 (s.firstLane fun e x => if obEfmt (x.record (f.srcb.toNat % 8)) = 11 then
      ((indexed (cells e x)).find? (fun p => !p.2.2.1)).map (·.1) else none)

/-- STO (R168): the active lanes alone. -/
def execSto (f : Slot) (s : State) : Answer :=
  guarded (.sto f) s fun s =>
    let h := s.home
    let fm := f.fmt.toNat
    let w := fmtWidth fm
    s.activeLanes.foldl (fun s e =>
      let x := s.tileCtx.engine e
      let r := x.record (f.srcb.toNat % 8)
      let (rows, n, _) := positions x f
      let v := s.rangeNum h e r
      let j := (osbIndex s x f 0).toNat
      let l := (indexed (splitElems w (rows * n) (srcC x (slotCluster f) f))).map fun p =>
        let (q, g) := rangeQuotient r v (j + p.1) (valOf fm p.2)
        let (y, k) := roundTo (obEfmt r) q f.rm.toNat (f.sat = 1)
        (y, g ||| k)
      (s.rangeWrite h e r j (l.map (·.1))).orFlags h (l.foldl (fun a p => a ||| p.2) 0)) s

/-! ### Global tile memory (R169 to R174) -/

/-- A tile access begun: it counts, opens its lookahead window, and is complete at once when no element takes part. -/
def State.startTile (s : State) (op : AccessOp) (pieces : List Piece) (wc : Nat) (la : BitVec 5)
    (index : Option (Nat × Nat)) : State :=
  let (id, s) := s.begin .tile op pieces none none wc
  match s.acc id with
  | none => s
  | some a =>
    let a := { a with index := index }
    if pieces.isEmpty then s.finish a else (s.setAcc a).look (la.toNat % 16) (.access id)

/-- The pieces of a global row access (R169, R250): the sectorRuns of each row of each engine. A helper's misaligned row
reads as zero. -/
def State.globalPieces (s : State) (f : Slot) (engs : List Nat) (data : Nat → Nat → List Byte) : List Piece :=
  engs.flatMap fun e =>
    let x := s.tileCtx.engine e
    let (rows, rb) := slotShape x f
    (List.range rows).flatMap fun i =>
      let a := (BitVec.ofInt 64 (rowAddr s x f i)).toNat
      let d := data e i
      if f.fmt.toNat < 10 && a % (fmtWidth f.fmt.toNat / 8) != 0 then
        [{ Piece.mk' a rb (toBytes rb 0) with eng := e, elem := i * rb, off := i * rb, helper := true, st := .performed }]
      else (sectorRuns a rb).map fun p =>
        { Piece.mk' (p.1 % 2 ^ 64) p.2 ((d.drop (p.1 - a)).take p.2) with
          eng := e, elem := i * rb + (p.1 - a), off := i * rb + (p.1 - a), helper := s.tileCtx.helper e }

/-- LDG (R169). -/
def execLdg (f : Slot) (s : State) : Answer :=
  guarded (.ldg f) s fun s =>
    s.startTile (.loadTile (slotCluster f) (regNum f.dst)) (s.globalPieces f s.acting (fun _ _ => [])) 0 f.md none

/-- STG (R169). -/
def execStg (f : Slot) (s : State) : Answer :=
  guarded (.stg f) s fun s =>
    s.startTile .store (s.globalPieces f s.activeLanes (fun e i => s.rowData f e i)) 1 f.md none

/-- The elements of an indexed operation in an engine with their fates (R171); a helper's operation of more than 512
elements has none that may be read. DEDUCED, log 52. -/
def indexElems (x : Engine) (f : Slot) : List (Nat × IndexFate) :=
  (List.range (indexCount x f)).map (fun k => (k, if k < 512 then indexFate x (slotCluster f) f k else .outside))

/-- Element k of the data register. -/
def dataElem (x : Engine) (f : Slot) (k : Nat) : Nat :=
  let w := fmtWidth f.fmt.toNat
  srcC x (slotCluster f) f >>> (k * w) % 2 ^ w

/-- The first element out of range of the active lanes (R187). -/
def State.firstOutside (s : State) (f : Slot) : Option (Nat × Nat) :=
  s.firstLane fun _ x => ((indexElems x f).find? (fun p => p.2 = .outside)).map (·.1)

/-- GATH (R171, R172). -/
def execGath (f : Slot) (s : State) : Answer :=
  guarded (.gath f) s fun s =>
    let n := fmtWidth f.fmt.toNat / 8
    let pieces := s.acting.flatMap fun e =>
      let x := s.tileCtx.engine e
      let helper := s.tileCtx.helper e
      let zero (k : Nat) : Piece :=
        { Piece.mk' 0 n (toBytes n 0) with eng := e, elem := k, off := k * n, helper := helper, st := .performed }
      (indexElems x f).filterMap fun p => match p.2 with
        | .skip => some (zero p.1)
        | .outside => if helper then some (zero p.1) else none
        | .addr va =>
          if va % n != 0 then some (zero p.1)
          else some { Piece.mk' va n [] with eng := e, elem := p.1, off := p.1 * n, helper := helper }
    s.startTile (.loadTile (slotCluster f) (regNum f.dst)) pieces 0 f.md (s.firstOutside f)

/-- The pieces of an indexed store: the elements of the active lanes that have an address, with their data. -/
def State.indexPieces (s : State) (f : Slot) : List Piece :=
  let n := fmtWidth f.fmt.toNat / 8
  s.activeLanes.flatMap fun e =>
    let x := s.tileCtx.engine e
    (indexElems x f).filterMap fun p => match p.2 with
      | .addr va => some { Piece.mk' va n (toBytes n (dataElem x f p.1)) with eng := e, elem := p.1, off := p.1 * n }
      | _ => none

/-- SCAT (R172). -/
def execScat (f : Slot) (s : State) : Answer :=
  guarded (.scat f) s fun s => s.startTile .store (s.indexPieces f) 1 f.md (s.firstOutside f)

/-- An engine's updates folded by address: each address once, its values added in ascending element order, under the
highest element, its leader (R173). -/
def foldLeaders (fm : Nat) (l : List Piece) : List Piece :=
  l.foldl (fun r p =>
    match r.find? (fun q => q.va = p.va) with
    | some q => r.filter (fun x => x.va != p.va)
        ++ [{ p with data := toBytes p.len (reduceNode 0 fm false 0 false (ofBytes q.data) (ofBytes p.data)).1 }]
    | none => r ++ [p]) []

/-- SCADD (R173). -/
def execScadd (f : Slot) (s : State) : Answer :=
  guarded (.scadd f) s fun s =>
    let all := s.indexPieces f
    let pieces := s.activeLanes.flatMap (fun e => foldLeaders f.fmt.toNat (all.filter (fun p => p.eng = e)))
    s.startTile (.scadd f.fmt.toNat) pieces 1 f.md (s.firstOutside f)

/-- VATOM (R174). -/
def execVatom (f : Slot) (s : State) : Answer :=
  guarded (.vatom f) s fun s =>
    let ret := bitOf f.rm 1
    s.startTile (.vatom (f.fill.toNat % 8) f.fmt.toNat (if ret then some (slotCluster f, regNum f.dst) else none))
      (s.indexPieces f) (if ret then 0 else 1) f.md (s.firstOutside f)

end Sys2Proof.Machine
end

