-- ==== Sys2Proof/Machine/Stream.lean ====
section
/-!
DEFINITION. The stream engine: copies, their continuations, and rings (R142, R143, R204 to R207, R379, R380).
-/
namespace Sys2Proof.Machine

/-! ### Where a byte lies -/

/-- A byte a copy reads or writes: of a program's scratchpad or OSB allocation, or of memory. -/
inductive CopyPlace where
  | spad (c : CtxRef) (e off : Nat)
  | osb (c : CtxRef) (e off : Nat)
  | mem (pa : Nat)
  deriving DecidableEq, Repr

/-- One number for each place: class, then address. -/
def CopyPlace.key : CopyPlace → Nat
  | .mem pa => 3 * pa
  | .spad c e off => 3 * ((ctxKey c.die c.core c.ctx * 16 + e) * 2 ^ 18 + off) + 1
  | .osb c e off => 3 * ((ctxKey c.die c.core c.ctx * 16 + e) * 2 ^ 18 + off) + 2

def State.placeByte (s : State) : CopyPlace → Byte
  | .mem pa => s.mem.byte pa
  | .spad c e off => (s.progSpad c e off 1).headD 0
  | .osb c e off => (s.progOsb c e off 1).headD 0

/-- Whether a place is a byte of a poisoned line (R391, R392). -/
def State.placePoisoned (s : State) : CopyPlace → Bool
  | .mem pa => s.poisoned pa
  | _ => false

def State.putPlace (s : State) (tag : OwnerTag) (b : Byte) : CopyPlace → State
  | .mem pa => s.homeWrite pa [b] tag
  | .spad c e off => s.progSpadPut streamRank c e off [b]
  | .osb c e off => s.progOsbPut c e off [b]

/-- Member, engine and byte of its allocation that a window address of a program names (R199, R255), in the member's
save record while it is saved (R296). -/
def State.memberPlace (s : State) (c : CtxRef) (va : Nat) : Option (CtxRef × Nat × Nat) :=
  let x := s.ctx c
  let pos := va >>> 22 % 4
  let off := va % 2 ^ 18
  let a := x.spadSize
  let g := x.lrec.gsize
  let held := if g ≤ 1 then (if pos = corePos (s.homeOf c).core then 1 else 0) else if pos < g then (g - pos + 3) / 4 else 0
  if 2 ^ 24 ≤ va || held * a ≤ off then none
  else
    let place (r : CtxRef) : CtxRef × Nat × Nat := (r, va >>> 18 % 16, off % a)
    if g ≤ 1 then some (place c)
    else
      let m := 4 * (off / a) + pos
      let p := x.prog
      match if c.isSaved then none else s.groupMember c pos (off / a) with
      | some r => some (place r)
      | none =>
        ((s.part p.part).savedProgs.find? (fun v => v.prog.part = p.part && v.prog.seq = p.seq && v.prog.bin = p.bin
          && v.prog.group = p.group && v.prog.mem = m)).map (fun v => place (savedPlace p.part v.slot))

/-- What a byte of a side names: a virtual address, a place of a program, or nothing it may reach. -/
inductive CopySpot where
  | va (va : Nat)
  | at_ (p : CopyPlace)
  | outside (val : Word)
  deriving DecidableEq, Repr

/-- What byte t of one side of a copy names for engine e. -/
def State.copySpot (s : State) (m : CopyCmd) (read : Bool) (e t : Nat) : CopySpot :=
  let pos := m.pos read e t
  let outside : CopySpot := .outside (BitVec.ofNat 64 (t % 2 ^ 32 * 2 ^ 32 + pos % 2 ^ 18))
  let c := m.by_.ctx
  match tlKind (m.side read) with
  | 0 => .va pos
  | 1 => if pos < (s.ctx c).spadSize then .at_ (.spad c e pos) else outside
  | 2 => match s.memberPlace c pos with
    | some (r, n, off) => .at_ (.spad r n off)
    | none => outside
  | _ =>
    let r := ngetD m.obs e (0, 0)
    let ob := if read then r.1 else r.2
    if pos < obLen ob * 64 then .at_ (.osb c e (obBase ob * 64 + pos)) else outside

/-- Whether two spots may be one location; a page not looked up yet may lie anywhere. -/
def State.sameSpot (s : State) (die : Nat) : CopySpot → CopySpot → Bool
  | .va a, .va b => match s.heldAt die a, s.heldAt die b with
    | some x, some y => x.pa = y.pa
    | _, _ => a % 65536 = b % 65536
  | .at_ p, .at_ q => p = q
  | _, _ => false

/-- Whether a copy has still to read or write a byte of a spot. -/
def State.copyTouches (s : State) (die : Nat) (b : CopyCmd) (p : CopySpot) : Bool :=
  (b.rest false).any (fun x => s.sameSpot die (s.copySpot b false x.1 x.2) p)
    || (b.rest true).any (fun x => s.sameSpot die (s.copySpot b true x.1 x.2) p)

/-- The descriptor's own fields NREM and XOFF. -/
def ringNrem (l : List Byte) : Nat := ofBytes ((l.drop 40).take 4)
def ringXoff (l : List Byte) : Nat := ofBytes ((l.drop 48).take 8)

/-- Whether a ring has still to move a byte of its external stream at a spot; its slots are ordered by its counters
(R207, R270). DESIGN CHOICE, log 103. -/
def State.ringTouches (s : State) (die : Nat) (r : RingCmd) (p : CopySpot) : Bool :=
  let total := tlTotal r.tl
  let (x, n) := match s.heldAt die r.desc.toNat with
    | some m => let l := s.mem.read m.pa 64
                (ringXoff l, ringNrem l * (ringOf l).slotb)
    | none => (0, total)
  (List.range (min n total)).any fun u => s.sameSpot die (.va (tlPos r.tl r.base 0 ((x + u) % total))) p

/-- Whether a spot stands behind an earlier command of a context on the copy path (R263). -/
def State.copyBehind (s : State) (die core : Nat) (c : CtxRef) (id : Nat) (p : CopySpot) : Bool :=
  let k := s.core die core
  k.copies.any (fun b => b.id < id && b.by_.ctx = c && s.copyTouches die b p)
    || k.rings.any (fun r => r.id < id && r.by_.ctx = c && s.ringTouches die r p)

/-- Whether a byte of a copy stands behind an earlier access: one location in an earlier command of its context on the copy
path (R263), or TSO pages, whose stores a read of other addresses passes (R253). -/
def State.byteHeld (s : State) (die core : Nat) (m : CopyCmd) (read : Bool) (p : CopySpot) : Bool :=
  let c := m.by_.ctx
  s.copyBehind die core c m.id p || (match p with
    | .va a => s.tsoMay die a
        && (s.othersTso c m.id
          || (s.core die core).copies.any (fun b => b.id < m.id && b.by_.ctx = c
            && (s.copyTso b true || (!read && s.copyTso b false)))
          || s.accs.any (fun x => x.place < m.id && x.ctxOf = c && x.pieces.any (fun q =>
            q.isOpen && (q.tso || q.pa.isNone) && (!(read && x.op.isStore)
              || q.mayOverlap { Piece.mk' a 1 [] with pa := (s.heldAt die a).map (·.pa) }))))
    | _ => false)

/-- Where one byte of a copy lies, what it waits for, or why it fails. -/
inductive PlaceRead where
  | at_ (p : CopyPlace)
  | wait
  | fail (code : BitVec 8) (val : Word)
  deriving DecidableEq, Repr

/-- The place of byte t of one side of a copy for engine e. A region whose answer failed one kind of access stays failed
for it (R379). -/
def State.copyPlace (s : State) (die core : Nat) (m : CopyCmd) (read : Bool) (e t : Nat) : PlaceRead × State :=
  let p := s.copySpot m read e t
  match p with
  | .outside v => (.fail 0x82 v, s)
  | .at_ q => (if s.byteHeld die core m read p then .wait else .at_ q, s)
  | .va pos =>
    match nget m.bad (pos / 65536 * 2 + (if read then 0 else 1)) with
    | some code => (.fail code (BitVec.ofNat 64 pos), s)
    | none =>
      match s.unitMap die (.stream die core m.id) (if read then .read else .write) [(pos, 1, 0)] with
      | (.wait, s) => (.wait, s)
      | (.fail code va, s) => (.fail code (BitVec.ofNat 64 va), s)
      | (.at_ l, s) => match s.unitFault die (read && tlKind m.dst != 0) l with
        | some (code, va) => (.fail code (BitVec.ofNat 64 va), s)
        | none => (if s.byteHeld die core m read p then .wait else .at_ (.mem ((l.headD (0, 0, 0)).2.2)), s)

/-! ### The moves of a copy (R205, R268, R379) -/

/-- What a move carries: the byte at a place, or one read ahead and whether it was poisoned. -/
inductive MoveSrc where
  | place (p : CopyPlace)
  | held (b : Byte) (poison : Bool)
  deriving DecidableEq, Repr

/-- One byte's move. -/
structure Move where
  eng : Nat
  t : Nat
  src : MoveSrc
  dst : CopyPlace
  deriving DecidableEq, Repr

/-- The byte a move carries now, and whether it is poisoned. -/
def State.srcByte (s : State) : MoveSrc → Byte × Bool
  | .place p => (s.placeByte p, s.placePoisoned p)
  | .held b x => (b, x)

/-- The moves of one engine, up to the first byte that fails, and whether a byte waits for its page. -/
structure EngineMoves where
  moves : List Move
  fault : Option UnitFault
  waits : Bool
  deriving DecidableEq, Repr

/-- Whether a place is a scratchpad byte of another core than a copy's: it is reached on the Indigo plane alone (R304). -/
def State.remote (s : State) (m : CopyCmd) : CopyPlace → Bool
  | .spad r _ _ => !r.isSaved && r.core != (s.homeOf m.by_.ctx).core
  | _ => false

/-- The moves of bytes t up for engine e, the first of them with the bytes read ahead; bytes of other cores are always read
ahead. -/
def State.engineMoves (s : State) (die core : Nat) (m : CopyCmd) (e : Nat) :
    List (Byte × Bool) → List Nat → EngineMoves × State
  | _, [] => ({ moves := [], fault := none, waits := false }, s)
  | h, t :: r =>
    let stop (p : PlaceRead) : EngineMoves := match p with
      | .fail code v => { moves := [], fault := some { code := code, val := v, eng := e }, waits := false }
      | _ => { moves := [], fault := none, waits := true }
    let (src, s) := match h with
      | (b, x) :: _ => (Except.ok (MoveSrc.held b x), s)
      | [] => match s.copyPlace die core m true e t with
        | (.at_ p, s) => (if s.remote m p then .error PlaceRead.wait else .ok (.place p), s)
        | (x, s) => (.error x, s)
    match src with
    | .error x => (stop x, s)
    | .ok p =>
      match s.copyPlace die core m false e t with
      | (.at_ q, s) =>
        let (x, s) := s.engineMoves die core m e h.tail r
        ({ x with moves := { eng := e, t := t, src := p, dst := q } :: x.moves }, s)
      | (x, s) => (stop x, s)

/-- At least n more bytes of an engine, with the rest of the aligned 8-byte unit of a scratchpad or OSB that they end in: a
write stands whole there (R256). -/
def CopyCmd.whole (m : CopyCmd) (e n : Nat) : Nat :=
  let next := ngetD m.moved e 0 + n
  if tlKind m.dst = 0 || n = 0 then n
  else n + ((List.range 7).takeWhile (fun j => next + j < tlTotal m.dst
    && m.pos false e (next + j) / 8 = m.pos false e (next - 1) / 8)).length

/-- The moves of at most n more bytes of an engine. -/
def State.nextMoves (s : State) (die core : Nat) (m : CopyCmd) (e n : Nat) : EngineMoves × State :=
  let k := ngetD m.moved e 0
  s.engineMoves die core m e (ngetD m.ahead e []) (upto k (min n (tlTotal m.src - k)))

/-- The moves of every engine. -/
def State.allMoves (s : State) (die core : Nat) (m : CopyCmd) : List EngineMoves × State :=
  m.engines.foldl (fun (x : List EngineMoves × State) e =>
    let (r, s) := x.2.nextMoves die core m e (tlTotal m.src)
    (x.1 ++ [r], s)) ([], s)

/-- The place a move reads. -/
def Move.from? (m : Move) : Option CopyPlace := match m.src with
  | .place p => some p
  | .held _ _ => none

/-- Least and greatest of the keys of a list. -/
def keyHull (l : List CopyPlace) : Option (Nat × Nat) :=
  l.foldl (fun r p => match r with
    | none => some (p.key, p.key)
    | some (a, b) => some (min a p.key, max b p.key)) none

/-- Whether two hulls meet. -/
def hullsMeet (a b : Option (Nat × Nat)) : Bool :=
  match a, b with
  | some (x, y), some (u, v) => x ≤ v && u ≤ y
  | _, _ => false

/-- Whether engines' copies of one command may touch the same byte. -/
def mayRace (l : List EngineMoves) : Bool :=
  let h := l.map (fun x => (keyHull (x.moves.filterMap (·.from?)), keyHull (x.moves.map (·.dst))))
  (indexed h).any fun a => (indexed h).any fun b =>
    a.1 != b.1 && (hullsMeet a.2.1 b.2.2 || hullsMeet a.2.2 b.2.2)

/-- The byte a move carries when engines' copies race (R205): what its own engine wrote there before, or else stood
there before the command, or any byte another engine of the command wrote there, by a free choice. The number bounds
a chain of such bytes. -/
def State.racedByte (s : State) (all : List Move) (draw : Nat) : Nat → Move → Byte
  | 0, m => (s.srcByte m.src).1
  | n + 1, m =>
    let hits (x : Move) : Bool := some x.dst == m.from?
    let own := match (all.filter (fun x => x.eng = m.eng && x.t < m.t && hits x)).getLast? with
      | some x => s.racedByte all draw n x
      | none => (s.srcByte m.src).1
    let others := all.filter (fun x => x.eng != m.eng && hits x)
    let k := Config.freeChoice (draw + m.eng + 16 * m.t) % (others.length + 1)
    match if k = 0 then none else others[k - 1]? with
    | some x => s.racedByte all draw n x
    | none => own

/-- The aligned 8-byte unit of a scratchpad or OSB that a place lies in. -/
def CopyPlace.unit : CopyPlace → CopyPlace
  | .spad c e off => .spad c e (off / 8)
  | .osb c e off => .osb c e (off / 8)
  | .mem pa => .mem pa

/-- The move whose byte remains at a place: the latest of the highest engine in memory; elsewhere of the engine that a free
choice ranks first in the place's aligned 8-byte unit, so that each write stands whole there (R205, R256). -/
def lastMove (all : List Move) (draw : Nat) (p : CopyPlace) : Option Move :=
  let l := all.filter (fun m => m.dst = p)
  let n := (all.findIdx? (fun m => m.dst.unit = p.unit)).getD 0
  let rank (e : Nat) : Nat := match p with
    | .mem _ => e
    | _ => 16 * Config.freeChoice (draw + 16 * n + e) + e
  let e := l.foldl (fun (b : Option Nat) m => match b with
    | none => some m.eng
    | some x => if rank x < rank m.eng then some m.eng else b) none
  (l.filter (fun m => some m.eng = e)).getLast?

/-- Lines of modules' memory that one run of moves covers whole (R391). -/
def fullLines : List CopyPlace → List Nat
  | [] => []
  | p :: r =>
    match p with
    | .mem pa =>
      if pa % 64 = 0 && paSpace pa != 2 && (p :: r).take 64 = (List.range 64).map (fun i => .mem (pa + i)) then
        pa / 64 :: fullLines r
      else fullLines r
    | _ => fullLines r

/-- The key of the 2 KiB block of a scratchpad that a place lies in. -/
def CopyPlace.block : CopyPlace → Option Nat
  | .spad c e off => some (CopyPlace.spad c e (off / 2048 * 2048)).key
  | _ => none

/-- Blocks of scratchpads that a copy's moves write, each counter once for the command, with its first
write to the block (R205, R230). DEDUCED, log 53. -/
def State.bumpMoves (s : State) (done : List Nat) (l : List CopyPlace) : State :=
  (dedup (l.filterMap (fun p => match p with
    | .spad c e off => if (p.block).any done.contains then none else some (c, e, off / 2048)
    | _ => none))).foldl (fun s p => s.progBump p.1 p.2.1 [(p.2.2 * 2048, 1)]) s

/-- Lines of memory that bytes of poisoned lines reach become poisoned, of another module too (R392). -/
def State.spread (s : State) (l : List (Bool × CopyPlace)) : State :=
  l.foldl (fun s m => match m with
    | (true, .mem b) => if paSpace b != 2 then s.poisonLine (b / 64) else s
    | _ => s) s

/-- The bytes of other cores that a copy reads or writes travel on the cluster's Indigo plane (R304). -/
def State.copyTransfers (s : State) (m : CopyCmd) (read : Bool) (l : List (Nat × CopyPlace × List Byte)) : State :=
  let c := s.homeOf m.by_.ctx
  let u := m.by_.ctx
  let pieces := l.filterMap fun p => match p.2.1 with
    | .spad r e off => some { pos := corePos r.core, eng := p.1, place := (r.core, e, (s.ctx r).spadBase + off), bytes := p.2.2 }
    | _ => none
  s.pushTransfers c.die (clusterOf c.core)
    ((windowTransfers m.id (.gang u.die u.core u.ctx false) (corePos c.core) (!read) s.time pieces).map
      (fun t => { t with copy := true }))

/-- Bytes put in their places one after another; those of other cores are sent there together. -/
def State.putMoves (s : State) (m : CopyCmd) (l : List (Nat × CopyPlace × Byte)) : State :=
  let tag := s.tagOf m.by_
  let t := (l.filter (fun x => !s.remote m x.2.1)).foldl (fun t x => t.putPlace tag x.2.2 x.2.1) s
  t.copyTransfers m false ((l.filter (fun x => s.remote m x.2.1)).map (fun x => (x.1, x.2.1, [x.2.2])))

/-- The bytes that moves carry, each with its place: what an earlier move of them wrote counts. -/
def State.carried (s : State) (all : List Move) : List (Nat × CopyPlace × Byte) :=
  (all.foldl (fun (r : List (Nat × CopyPlace × Byte)) x =>
    let b := match x.from?.bind (fun p => r.find? (fun y => y.2.1 = p)) with
      | some y => y.2.2
      | none => (s.srcByte x.src).1
    (x.eng, x.dst, b) :: r) []).reverse

/-- The moves of a copy made, but for bytes of memory that a higher engine of it has written in an earlier step (R205). -/
def State.makeMoves (s : State) (m : CopyCmd) (l : List EngineMoves) : State :=
  let late (x : Move) : Bool := match x.dst with
    | .mem pa => (nget m.wrote pa).any (fun e => x.eng < e)
    | _ => false
  let all := (l.flatMap (·.moves)).filter (fun x => !late x)
  let dsts := all.map (·.dst)
  let draw := s.freeCtr
  let bad := all.map (fun x => ((s.srcByte x.src).2, x.dst))
  let t := if mayRace l then
      State.putMoves { s with freeCtr := draw + 16 * (all.length + 1) + 16 * (all.foldl (fun n v => max n v.t) 0 + 1) } m
        ((dedup dsts).filterMap (fun p => (lastMove all draw p).map
          (fun x => (x.eng, p, s.racedByte all (draw + 16 * (all.length + 1)) all.length x))))
    else if tlKind m.dst = 2 then s.putMoves m (s.carried all)
    else all.foldl (fun t x => t.putPlace (s.tagOf m.by_) (t.srcByte x.src).1 x.dst) s
  let t := (l.flatMap (fun x => fullLines (x.moves.map (·.dst)))).foldl (fun t n => { t with poison := t.poisonList n false }) t
  (t.spread bad).bumpMoves m.bumped (dsts.filter (fun p => !s.remote m p))

/-- What a copy remembers of moves of an engine made: the engines that wrote memory, the blocks counted, how far it is. -/
def CopyCmd.after (m : CopyCmd) (e : Nat) (l : List Move) : CopyCmd :=
  let wrote := l.foldl (fun w x => match x.dst with
    | .mem pa => nset w pa (max x.eng (ngetD w pa 0))
    | _ => w) m.wrote
  { m with
    moved := nset m.moved e (ngetD m.moved e 0 + l.length)
    ahead := nset m.ahead e ((ngetD m.ahead e []).drop l.length)
    wrote := if m.engines.length ≤ 1 then m.wrote else wrote
    bumped := dedup (m.bumped ++ l.filterMap (fun x => x.dst.block)) }

/-- At most n more bytes of an engine read ahead, up to one that fails, waits, or that the engine has still to write
itself. -/
def State.readAhead (s : State) (die core : Nat) (m : CopyCmd) (e : Nat) : Nat → List (Byte × Bool) × State
  | 0 => ([], s)
  | n + 1 =>
    let (l, s) := s.readAhead die core m e n
    let k := ngetD m.moved e 0
    let t := k + (ngetD m.ahead e []).length + l.length
    if l.length < n || tlTotal m.src ≤ t then (l, s)
    else if (upto k (t - k)).any (fun u => s.sameSpot die (s.copySpot m false e u) (s.copySpot m true e t)) then (l, s)
    else match s.copyPlace die core m true e t with
      | (.at_ p, s) => (l ++ [(s.placeByte p, s.placePoisoned p)], s)
      | (_, s) => (l, s)

/-! ### Copies (R205, R206, R379) -/

/-- A posting for a saved program also enters its save record: NPOST and the next address (R296, R298). -/
def State.recordPost (s : State) (c : CtxRef) (a : Word) : State :=
  if c.isSaved then
    let n := (s.ctx c).posts.length
    let va := s.slotVa c.savedPart c.ctx
    (s.putVa c.savedPart (va + 21) (toBytes 1 (n + 1)) (s.ctxTag c)).putVa c.savedPart (va + 128 + 8 * n)
      (toBytes 8 a.toNat) (s.ctxTag c)
  else s

/-- A copy leaves the stream engine: wc2 falls; a CPYY that is complete posts its continuation, one that fails takes
its place among the postings back; a fault is its issuer's (R205, R206, R379). -/
def State.endCopy (s : State) (die core : Nat) (m : CopyCmd) (f : Option UnitFault) : State :=
  let k := s.core die core
  let s := s.setCore die core (Core.moved { k with
    copies := k.copies.filter (fun x => x.id != m.id)
    strq := k.strq.filter (fun i => match i with | .copy x => x.id != m.id | .ring _ => true) } 4 s.time)
  let s := (s.wcDown (.gang m.by_.ctx.die m.by_.ctx.core m.by_.ctx.ctx false) 2).unlist die (.stream die core m.id)
  let c := m.by_.ctx
  let s := match m.cont, f with
    | some a, none => (s.recordPost c a).setCtx c { s.ctx c with posts := (s.ctx c).posts ++ [a] }
    | some _, some _ => s.setCtx c { s.ctx c with cpyy := (s.ctx c).cpyy - 1 }
    | none, _ => s
  match f with
  | some f => (s.dropArrivals c m.id f.code).raiseBy m.by_ f.code 3 f.val f.eng 3
  | none => s

/-- The fault of a copy's start: a gang copy with a side that is not in memory, unequal totals, an OSB side whose
record is not valid (R205, R377, R380). -/
def State.copyFault (s : State) (m : CopyCmd) : Option UnitFault :=
  let size := (s.ctx m.by_.ctx).osbSize
  if (m.gang && (tlKind m.src != 0 || tlKind m.dst != 0)) || tlTotal m.src != tlTotal m.dst then
    some { code := 0x81, val := BitVec.ofNat 64 (tlTotal m.src % 2 ^ 32 * 2 ^ 32 + tlTotal m.dst % 2 ^ 32), eng := 0 }
  else m.engines.findSome? fun e =>
    let r := ngetD m.obs e (0, 0)
    if tlKind m.src = 3 && !obValid r.1 size then some { code := 0x65, val := BitVec.ofNat 64 (tlOb m.src), eng := e }
    else if tlKind m.dst = 3 && !obValid r.2 size then some { code := 0x65, val := BitVec.ofNat 64 (tlOb m.dst), eng := e }
    else none

/-- COPY_START (R205): the copy at the head of the queue starts, and its entry of the queue is free. DESIGN CHOICE, log
103. -/
def execCopyStart (die core : Nat) (s : State) : Answer :=
  let k := s.core die core
  match k.strq with
  | .copy m :: r =>
    match if m.engines.isEmpty then none else s.copyFault m with
    | some f => .next (s.unitStep (s.endCopy die core m (some f)))
    | none => .next (s.setCore die core (Core.moved { k with strq := r, copies := k.copies ++ [{ m with started := true }] } 4 s.time))
  | _ => .next s

/-- Writes of a command to host memory wait for a flush at .sys (R266, R274). -/
def State.flushFor (s : State) (die : Nat) (c : CtxRef) (path : Path) (id : Nat) (l : List CopyPlace) : State :=
  if l.any (fun p => match p with | .mem pa => paSpace pa = 2 | _ => false) then
    let part := s.partN die
    s.setPart part { s.part part with flush := (s.part part).flush ++ [(.gang c.die c.core c.ctx false, path, id)] }
  else s

/-- What a step of a copy has moved: the bytes, and the host writes to flush. -/
def State.moveStep (s : State) (die : Nat) (m : CopyCmd) (l : List EngineMoves) : State :=
  (s.makeMoves m l).flushFor die m.by_.ctx .copy m.id ((l.flatMap (·.moves)).map (·.dst))

/-- A copy in flight replaced. -/
def State.setCopy (s : State) (die core : Nat) (m : CopyCmd) : State :=
  let k := s.core die core
  s.setCore die core (Core.moved { k with copies := k.copies.map (fun x => if x.id = m.id then m else x) } 4 s.time)

/-- At most n more bytes of an engine read ahead; those of other cores are sent for. -/
def State.fetchAhead (s : State) (die core : Nat) (m : CopyCmd) (e n : Nat) : State × CopyCmd :=
  let from_ := ngetD m.moved e 0 + (ngetD m.ahead e []).length
  let (l, s) := s.readAhead die core m e n
  let there := (upto from_ l.length).filterMap fun t => match s.copySpot m true e t with
    | .at_ p => if s.remote m p then some (e, p, []) else none
    | _ => none
  (s.copyTransfers m true there, { m with ahead := nset m.ahead e (ngetD m.ahead e [] ++ l) })

/-- Whether sectors that a copy reads from other cores, or those that it writes there, are still on their way. -/
def State.copyOnWay (s : State) (m : CopyCmd) : Bool :=
  let c := s.homeOf m.by_.ctx
  s.onWay c.die (clusterOf c.core) m.id

/-- A copy after moves of its engines. -/
def CopyCmd.afterAll (m : CopyCmd) (l : List EngineMoves) : CopyCmd :=
  ((m.engines.zip l).foldl (fun m x => m.after x.1 x.2.moves) m)

/-- What is left of a copy moves: it waits while a page is not held or something earlier stands before it, reads what lies on
other cores ahead, and is complete once every byte it sent there has landed; the lowest engine's failure is reported. -/
def State.finishCopy (s : State) (die core : Nat) (m : CopyCmd) : State :=
  let (l, s) := s.allMoves die core m
  let idle := l.all (fun x => x.moves.isEmpty)
  if l.any (·.waits) then
    if tlKind m.src != 2 then s
    else if idle then
      let (s, m) := m.engines.foldl (fun (x : State × CopyCmd) e => x.1.fetchAhead die core x.2 e (tlTotal m.src)) (s, m)
      s.setCopy die core m
    else (s.moveStep die m l).setCopy die core (m.afterAll l)
  else
    let s := s.moveStep die m l
    if s.copyOnWay m then s.setCopy die core (m.afterAll l)
    else s.endCopy die core m (l.findSome? (·.fault))

/-- COPY_COMPLETE (R205, R206, R268, R304): with a part, some next bytes of one engine are read ahead or written. Without one
the rest moves once every page is held and nothing earlier stands before it, each engine up to its own failing byte, and
the copy is complete. Bytes that come from another core are moved on once they have landed. -/
def execCopyComplete (die core : Nat) (run : CopyRun) (s : State) : Answer :=
  match (s.core die core).copies.find? (fun m => m.id = run.cmd) with
  | none => .next s
  | some m =>
    if tlKind m.src = 2 && s.copyOnWay m then .next s
    else match run.part with
    | none => .next (s.unitStep (s.finishCopy die core m))
    | some p =>
      if !m.engines.contains p.eng then .next s
      else if p.read then
        let (s, m) := s.fetchAhead die core m p.eng p.n
        .next (s.setCopy die core m)
      else
        let n := m.whole p.eng p.n
        let (x, s) := s.nextMoves die core m p.eng n
        let l := if x.waits && tlKind m.dst != 0 then
            x.moves.reverse.dropWhile (fun v => m.pos false p.eng v.t / 8 = m.pos false p.eng (ngetD m.moved p.eng 0 + x.moves.length) / 8)
          else x.moves.reverse
        let x := { x with moves := l.reverse }
        .next ((s.moveStep die m [x]).setCopy die core (m.after p.eng x.moves))

/-! ### Rings (R143, R207) -/

/-- A ring leaves the stream engine; a fault is its issuer's. -/
def State.endRing (s : State) (die core : Nat) (r : RingCmd) (f : Option UnitFault) : State :=
  let k := s.core die core
  let s := s.setCore die core (Core.moved { k with
    rings := k.rings.filter (fun x => x.id != r.id)
    strq := k.strq.filter (fun i => match i with | .ring x => x.id != r.id | .copy _ => true) } 5 s.time)
  let s := s.unlist die (.ring die core r.id)
  match f with
  | some f => (s.dropArrivals r.by_.ctx r.id f.code).raiseBy r.by_ f.code 3 f.val 0 3
  | none => s

/-- A RINGSET at the head of the queue: its checks, then sb into the descriptor (R207, R380). -/
def State.startRing (s : State) (die core : Nat) (r : RingCmd) : State :=
  let bad (s : State) (code : BitVec 8) (va : Nat) : State :=
    s.endRing die core r (some { code := code, val := BitVec.ofNat 64 va, eng := 0 })
  if tlKind r.tl != 0 || r.desc.toNat % 64 != 0 then bad s 0x84 r.desc.toNat
  else match s.unitRead die (.ring die core r.id) r.desc.toNat 64 with
    | (.wait, s) => s
    | (.fail c va, s) => bad s c va
    | (.bytes l, s) =>
      let d := ringOf l
      if !d.aligned || !d.ok then bad s 0x84 r.desc.toNat
      else match s.unitMap die (.ring die core r.id) .write (sectors (r.desc.toNat + 32) 8) with
        | (.wait, s) => s
        | (.fail c va, s) => bad s c va
        | (.at_ p, s) => match s.unitFault die false p with
          | some (c, va) => bad s c va
          | none =>
            let s := (s.unitWrite p (toBytes 8 r.base.toNat) (s.tagOf r.by_)).flushFor die r.by_.ctx .copy r.id
              (p.map (fun x => .mem x.2.2))
            let k := s.core die core
            s.setCore die core (Core.moved { k with
              strq := k.strq.filter (fun i => match i with | .ring x => x.id != r.id | .copy _ => true)
              rings := k.rings ++ [r] } 5 s.time)

/-- Whether a ring being served has a slot to serve, or has none left. -/
def Ring.due (r : Ring) (prod : Bool) (nrem : Nat) : Bool := nrem = 0 || (r.slot prod).isSome

/-- The bytes of a slot as runs of memory: the slot's own sectors, and for the external stream byte by byte. -/
def RingCmd.external (r : RingCmd) (xoff n : Nat) : List (Nat × Nat × Nat) :=
  let total := tlTotal r.tl
  (List.range n).map (fun u => (tlPos r.tl r.base 0 ((xoff + u) % total), 1, u))

/-- Whether a byte of the next slot of a ring, or of its external stream, stands behind an earlier command of its context on
the copy path (R263). -/
def State.slotBehind (s : State) (die core : Nat) (r : RingCmd) (l : List Byte) : Bool :=
  let d := ringOf l
  let behind (a : Nat) : Bool := s.copyBehind die core r.by_.ctx r.id (.va a)
  (r.external (ringXoff l) d.slotb).any (fun x => behind x.1)
    || (d.slot r.prod).any (fun v => (List.range d.slotb).any (fun u => behind (v.toNat + u)))

/-- Whether a ring is due, by its descriptor where that can be read now. -/
def State.ringDue (s : State) (die core : Nat) (r : RingCmd) : Bool :=
  match (s.unitRead die (.ring die core r.id) r.desc.toNat 64).1 with
  | .bytes l => (ringOf l).due r.prod (ringNrem l) && !s.slotBehind die core r l
  | _ => false

/-- Whether it is a ring's turn: one slot of each ring that is due, in turn (R207). -/
def State.ringTurn (s : State) (die core : Nat) (i : Nat) : Bool :=
  let k := s.core die core
  let n := k.rings.length
  let start := k.ringNext % max n 1
  (List.range ((i + n - start) % max n 1)).all fun j =>
    match k.rings[(start + j) % max n 1]? with
    | some r => !s.ringDue die core r
    | none => true

/-- The leading runs of a list that are mapped and reachable, and what stops the rest. -/
def State.unitPrefix (s : State) (die : Nat) (who : Requester) (k : AccessKind) (read : Bool) :
    List (Nat × Nat × Nat) → (List (Nat × Nat × Nat) × Option UnitMap) × State
  | [] => (([], none), s)
  | p :: r =>
    match s.unitMap die who k [p] with
    | (.at_ l, s) =>
      match s.unitFault die read l with
      | some (c, va) => (([], some (.fail c va)), s)
      | none =>
        let ((x, e), s) := s.unitPrefix die who k read r
        ((l ++ x, e), s)
    | (e, s) => (([], some e), s)

/-- The bytes of a ring's slot moved, up to one that fails. -/
def State.moveSlot (s : State) (die : Nat) (r : RingCmd) (l : List ((Nat × Nat × Nat) × (Nat × Nat × Nat))) : State :=
  let tag := s.tagOf r.by_
  let dsts := l.map (fun p => CopyPlace.mem p.2.2.2)
  let bad := l.map (fun p => (s.placePoisoned (.mem p.1.2.2), CopyPlace.mem p.2.2.2))
  let s := l.foldl (fun s p => s.homeWrite p.2.2.2 (s.mem.read p.1.2.2 1) tag) s
  let s := (fullLines dsts).foldl (fun s x => { s with poison := s.poisonList x false }) s
  (s.spread bad).flushFor die r.by_.ctx .copy r.id dsts

/-- The counter of a ring's side, XOFF and NREM as a served slot leaves them; pa is the descriptor's. -/
def State.slotDone (s : State) (die : Nat) (r : RingCmd) (l : List Byte) (pa : Nat) : State :=
  let tag := s.tagOf r.by_
  let d := ringOf l
  let s := if r.prod then s.homeWrite pa (toBytes 8 (d.pcount + 1)) tag
    else s.homeWrite (pa + 8) (toBytes 8 (d.ccount + 1)) tag
  let s := s.homeWrite (pa + 48) (toBytes 8 ((ringXoff l + d.slotb) % tlTotal r.tl)) tag
  (s.homeWrite (pa + 40) (toBytes 4 (ringNrem l - 1)) tag).flushFor die r.by_.ctx .copy r.id [.mem pa]

/-- A ring being served with its slot's bytes written or not. -/
def State.ringMoved (s : State) (die core : Nat) (r : RingCmd) (b : Bool) : State :=
  let k := s.core die core
  s.setCore die core { k with rings := k.rings.map (fun x => if x.id = r.id then { x with moved := b } else x) }

/-- Whether writes of a ring to host memory still wait for their flush. -/
def State.ringFlush (s : State) (die : Nat) (r : RingCmd) : Bool :=
  r.sys && (s.part (s.partN die)).flush.any (fun f => f.2.2 = r.id)

/-- One slot of a ring (R207): its bytes, up to one that fails, then the counter with release, XOFF and NREM; at .sys the
counter waits for the flush of bytes in host memory (R270, R274). -/
def State.serveSlot (s : State) (die core : Nat) (r : RingCmd) (l : List Byte) (slot : Word) : State :=
  let who : Requester := .ring die core r.id
  let d := ringOf l
  let n := d.slotb
  let inner := (List.range n).map (fun u => (slot.toNat + u, 1, u))
  let outer := r.external (ringXoff l) n
  let ((a, ea), s) := s.unitPrefix die who .read false (if r.prod then outer else inner)
  let ((b, eb), s) := s.unitPrefix die who .write false (if r.prod then inner else outer)
  let ((w, ew), s) := s.unitPrefix die who .atomic true (sectors r.desc.toNat 64)
  if ea == some .wait || eb == some .wait || ew == some .wait then s
  else
    let s := if r.moved then s else s.moveSlot die r (a.zip b)
    let fail (e : UnitMap) : State := match e with
      | .fail c va => s.endRing die core r (some { code := c, val := BitVec.ofNat 64 va, eng := 0 })
      | _ => s
    match if a.length ≤ b.length then ea else eb, (if a.length ≤ b.length then eb else ea), ew with
    | some e, _, _ => fail e
    | none, some e, _ => fail e
    | none, none, some e => fail e
    | none, none, none =>
      if s.ringFlush die r then s.ringMoved die core r true
      else (s.slotDone die r l (w.headD (0, 0, 0)).2.2).ringMoved die core r false

/-- A ring being served, in its turn. -/
def State.turnRing (s : State) (die core i : Nat) (r : RingCmd) : State :=
  let next (s : State) : State := s.setCore die core (Core.moved { s.core die core with ringNext := i + 1 } 5 s.time)
  match s.unitRead die (.ring die core r.id) r.desc.toNat 64 with
  | (.wait, s) => s
  | (.fail c va, s) => s.endRing die core r (some { code := c, val := BitVec.ofNat 64 va, eng := 0 })
  | (.bytes l, s) =>
    if ringNrem l = 0 then s.endRing die core r none
    else match (ringOf l).slot r.prod with
      | some slot => if s.slotBehind die core r l then s else next (s.serveSlot die core r l slot)
      | none => s

/-- RING_SLOT_SERVE (R207): a ring at the head of the queue is taken while fewer than eight are served, and until then
holds what stands behind it; a ring being served fills or drains one slot when it is its turn. DESIGN CHOICE, log 103. -/
def execRingSlotServe (die core ring : Nat) (s : State) : Answer :=
  let k := s.core die core
  match (indexed k.rings).find? (fun e => e.2.id = ring) with
  | some (i, r) => .next (if s.ringTurn die core i then s.unitStep (s.turnRing die core i r) else s)
  | none =>
    match k.strq with
    | .ring r :: _ => .next (if r.id = ring && k.rings.length < 8 then s.unitStep (s.startRing die core r) else s)
    | _ => .next s

end Sys2Proof.Machine
end

