-- ==== Sys2Proof/Machine/Coll.lean ====
section
/-!
DEFINITION. The collective engines: members join the instances of their groups, an instance forms and computes, and
each member's DST is written (R76, R212 to R214, R322, R379, R380).
-/
namespace Sys2Proof.Machine

/-- A descriptor's fields (R212). -/
structure CollDesc where
  src : Nat
  dst : Nat
  group : Nat
  count : Nat
  nmemb : Nat
  op : Nat
  fmt : Nat
  root : Nat
  rest : Nat
  deriving DecidableEq, Repr

def collDescOf (l : List Byte) : CollDesc :=
  let at_ (o n : Nat) : Nat := ofBytes ((l.drop o).take n)
  { src := at_ 0 8, dst := at_ 8 8, group := at_ 16 8, count := at_ 24 4, nmemb := at_ 28 4, op := at_ 32 1,
    fmt := at_ 33 1, root := at_ 34 2, rest := at_ 36 28 }

/-- Whether a descriptor keeps R212, for a member's index. -/
def CollDesc.ok (d : CollDesc) (mem : Nat) : Bool :=
  d.group % 64 = 0 && 1 ≤ d.count && d.count ≤ 2 ^ 28 && 1 ≤ d.nmemb && d.nmemb ≤ 16384 && d.op ≤ 5
    && [0, 1, 2, 6].contains d.fmt && (d.op != 3 || d.root < d.nmemb) && d.rest = 0 && mem < d.nmemb

/-- Whether an instance is a COLL whose descriptor has not been read. DESIGN CHOICE, log 39. -/
def CollInst.stub (i : CollInst) : Bool := i.nmemb = 0

/-- An instance replaced, which is progress of its engine (R402); one of no member goes. -/
def State.setColl (s : State) (i : CollInst) : State :=
  let i := { i with movedAt := s.time }
  { s with colls := (s.colls.map (fun x => if x.id = i.id then i else x)).filter (fun x => !x.members.isEmpty) }

/-- The die whose unit acts for a member. -/
def State.collDie (s : State) (m : CollMember) : Nat := (s.homeOf m.by_.ctx).die

/-- A member's COLL is over: its wc2 falls, and a fault is its issuer's. -/
def State.endMember (s : State) (inst : Nat) (m : CollMember) (f : Option (BitVec 8 × Word)) : State :=
  let c := m.by_.ctx
  let s := (s.wcDown (.gang c.die c.core c.ctx false) 2).unlist (s.collDie m) (.coll inst m.id)
  match f with
  | some (code, v) => (s.dropArrivals c m.id code).raiseBy m.by_ code 3 v 0 5
  | none => s

/-- An instance aborted: one member's COLL fails with its own cause, every other member's with 0x88 (R379, R404). -/
def State.abortColl (s : State) (i : CollInst) (own : Option (Nat × BitVec 8 × Word)) : State :=
  let s := { s with colls := s.colls.filter (fun x => x.id != i.id) }
  (i.members.filter (fun m => !m.written)).foldl (fun s m => match own with
    | some (id, code, v) => s.endMember i.id m (some (if m.id = id then (code, v) else (0x88, m.desc)))
    | none => s.endMember i.id m (some (0x88, m.desc))) s

/-- A failure of one member's access: of a COLL that has joined no instance its own, else its instance's. -/
def State.failColl (s : State) (inst id : Nat) (code : BitVec 8) (va : Nat) : State :=
  match s.colls.find? (fun i => i.id = inst) with
  | some i => s.abortColl i (some (id, code, BitVec.ofNat 64 va))
  | none => s

/-! ### Joining (R212) -/

/-- How often a member of a group has joined. -/
def State.joinCount (s : State) (part group mem : Nat) : Nat :=
  ((s.joins.find? (fun j => j.1 = (part, group, mem))).map (·.2)).getD 0

/-- A member counted once more. -/
def State.countJoin (s : State) (part group mem : Nat) : State :=
  { s with joins := ((part, group, mem), s.joinCount part group mem + 1) :: s.joins.filter (fun j => j.1 != (part, group, mem)) }

/-- Whether an instance and a descriptor agree (R212). -/
def CollInst.agrees (i : CollInst) (d : CollDesc) : Bool :=
  i.count = d.count && i.nmemb = d.nmemb && i.op = d.op && i.fmt = d.fmt && i.root = d.root

/-- A COLL with its descriptor joins the instance of its member's count; a second program that gives the index of a
member standing in an open instance joins that one, which then fails (R212, R380). DEDUCED, log 40. -/
def State.joinColl (s : State) (stub : CollInst) (m : CollMember) (d : CollDesc) : Nat × State :=
  let m := { m with src := BitVec.ofNat 64 d.src, dst := BitVec.ofNat 64 d.dst }
  let mates := s.colls.filter (fun i => !i.stub && i.part = stub.part && i.group = d.group && !i.formed)
  let twin := mates.find? (fun i => i.members.any (fun x => x.mem = m.mem && x.by_.ctx != m.by_.ctx))
  let k := s.joinCount stub.part d.group m.mem
  let s := if twin.isSome then s else s.countJoin stub.part d.group m.mem
  match match twin with | some i => some i | none => mates.find? (fun i => i.k = k) with
  | some i =>
    let s := { s with colls := s.colls.filter (fun x => x.id != stub.id) }
    (i.id, s.setColl { i with members := i.members ++ [m], mismatch := i.mismatch || twin.isSome || !i.agrees d })
  | none =>
    (stub.id, s.setColl { stub with group := d.group, k := k, count := d.count, nmemb := d.nmemb, op := d.op,
                                    fmt := d.fmt, root := d.root, members := [m] })

/-! ### Computing (R76, R213) -/

/-- Levels of the pairwise tree over n members. -/
def treeLevels (n : Nat) : Nat := if n ≤ 1 then 0 else bitLen (n - 1)

/-- One element combined over the members in index order. -/
def combine (op f : Nat) (l : List Nat) : Nat :=
  ((tree (reduceNode op f false 0 false) (treeLevels l.length) (l.map some)).1).getD 0

/-- The results of an instance from its members' sources in index order: one for all, or one for each member. -/
def CollInst.compute (i : CollInst) (src : List (List Byte)) : NMap (List Byte) :=
  let w := fmtWidth i.fmt / 8
  let elem (l : List Byte) (j : Nat) : Nat := ofBytes ((l.drop (j * w)).take w)
  let sum (op j : Nat) : List Byte := toBytes w (combine op i.fmt (src.map (fun l => elem l j)))
  match i.op with
  | 3 => [(0, at' src i.root [])]
  | 4 => [(0, src.flatten)]
  | 5 => (List.range i.nmemb).map fun m => (m, (upto (m * i.count) i.count).flatMap (sum 0))
  | op => [(0, (List.range i.count).flatMap (sum op))]

/-- Bytes of a member's source and of its destination. -/
def CollInst.srcLen (i : CollInst) : Nat := i.count * (fmtWidth i.fmt / 8) * (if i.op = 5 then i.nmemb else 1)
def CollInst.dstLen (i : CollInst) : Nat := i.count * (fmtWidth i.fmt / 8) * (if i.op = 4 then i.nmemb else 1)

/-- Members in index order. -/
def CollInst.ordered (i : CollInst) : List CollMember :=
  (List.range i.nmemb).filterMap (fun n => i.members.find? (fun m => m.mem = n))

/-- Whether every member of an instance has joined, those in other modules included (R213, R322). -/
def CollInst.full (i : CollInst) : Bool := i.nmemb ≤ i.members.length + i.outside.length

/-- Bytes of a member's source that are to be read: broadcast reads ROOT's alone. -/
def CollInst.readLen (i : CollInst) (mem : Nat) : Nat := if i.op = 3 && mem != i.root then 0 else i.srcLen

/-- Whether two runs of bytes of a die may share a byte of memory; a page not looked up yet may lie anywhere. -/
def State.runsMeet (s : State) (die a n b m : Nat) : Bool :=
  (sectors a n).any fun x => (sectors b m).any fun y =>
    match s.heldAt die x.1, s.heldAt die y.1 with
    | some p, some q => p.pa < q.pa + y.2.1 && q.pa < p.pa + x.2.1
    | _, _ => x.1 % 65536 < y.1 % 65536 + y.2.1 && y.1 % 65536 < x.1 % 65536 + x.2.1

/-- Whether bytes that a member's COLL reads or writes stand behind an earlier COLL of its program that has still to read
or write one of them (R263). -/
def State.collBehind (s : State) (m : CollMember) (va n : Nat) : Bool :=
  s.colls.any fun i => i.members.any fun x =>
    x.id < m.id && x.by_.ctx = m.by_.ctx && !x.written && !i.stub
      && ((!i.formed && s.runsMeet (s.collDie m) x.src.toNat (i.readLen x.mem) va n)
        || s.runsMeet (s.collDie m) x.dst.toNat i.dstLen va n)

/-- Whether an open instance is aborted: a member ended by a fault while a die of the partition is contained (R404), or no
port reaches the module of a member (R409). One whose destinations are being written is not open any more (R379). -/
def State.collBroken (s : State) (i : CollInst) : Bool :=
  let contained := (bitsOf (s.part i.part).dies).any (fun d => (s.die d).status != .running)
  !i.stub && (!i.formed || i.full)
    && ((contained && i.members.any (fun m => (s.ctx m.by_.ctx).faulted)) || i.outside.any (fun o => !s.moduleUp i.part o.module))

/-- An instance aborted for that: a member that has ended fails with nothing of its own, every other with 0x88 (R404). -/
def State.breakColl (s : State) (i : CollInst) : State :=
  let gone (m : CollMember) : Bool := (s.ctx m.by_.ctx).faulted
  let t := s.abortColl { i with members := i.members.filter (fun m => !gone m) } none
  (i.members.filter gone).foldl (fun s m => s.endMember i.id m none) t

/-- Every instance of a partition that must be aborted is. -/
def State.settleColls (s : State) (part : Nat) : State :=
  (s.colls.filter (fun i => i.part = part && s.collBroken i)).foldl State.breakColl s

/-- Some next bytes of a member's source, after those read ahead. -/
def State.collRead (s : State) (i : CollInst) (m : CollMember) (n : Nat) : UnitRead × State :=
  let l := ngetD i.ahead m.mem []
  let k := min n (i.readLen m.mem - l.length)
  if k = 0 then (.bytes [], s)
  else if s.collBehind m ((m.src.toNat + l.length) % 2 ^ 64) k then (.wait, s)
  else s.unitRead (s.collDie m) (.coll i.id m.id) ((m.src.toNat + l.length) % 2 ^ 64) k

/-- What a member's part of a forming instance gives: its source's bytes and the places of its destination. -/
abbrev CollPart := CollMember × List Byte × List (Nat × Nat × Nat)

/-- The sources of the members of this module, and the pages of every destination looked up: all, none yet, or a
member's failure. -/
def State.collSources (s : State) (i : CollInst) :
    List CollMember → Except (Option (Nat × BitVec 8 × Nat)) (List CollPart) × State
  | [] => (.ok [], s)
  | m :: r =>
    let die := s.collDie m
    let (x, s) := s.collRead i m i.srcLen
    match x with
    | .wait => (.error none, s)
    | .fail c va => (.error (some (m.id, c, va)), s)
    | .bytes l =>
      match s.unitMap die (.coll i.id m.id) .write (sectors m.dst.toNat i.dstLen) with
      | (.wait, s) => (.error none, s)
      | (.fail c va, s) => (.error (some (m.id, c, va)), s)
      | (.at_ p, s) =>
        match s.unitFault die false p with
        | some (c, va) => (.error (some (m.id, c, va)), s)
        | none => match s.collSources i r with
          | (.ok ls, s) => (.ok ((m, ngetD i.ahead m.mem [] ++ l, p) :: ls), s)
          | x => x

/-- The sources of every member in index order, from this module's and from those of others. -/
def CollInst.sources (i : CollInst) (l : List CollPart) : List (List Byte) :=
  (List.range i.nmemb).map fun n => match l.find? (fun p => p.1.mem = n) with
    | some p => p.2.1
    | none => ((i.outside.find? (fun o => o.mem = n)).bind (·.bytes)).getD []

/-- An instance all of whose members have joined forms: a mismatch is charged to every member, a failure in another
module ends it here too, else it computes. -/
def State.formColl (s : State) (id : Nat) : State :=
  match s.colls.find? (fun i => i.id = id) with
  | none => s
  | some i =>
    if i.stub || i.formed || !i.full then s
    else if i.mismatch || i.outside.any (fun o => !o.agrees || o.bytes.isNone) then s.abortColl i none
    else match s.collSources i i.ordered with
      | (.error none, s) => s
      | (.error (some (m, c, va)), s) => s.failColl id m c va
      | (.ok l, s) => s.setColl { i with
          formed := true, results := i.compute (i.sources l)
          members := i.members.map (fun m => { m with places := ((l.find? (fun p => p.1.id = m.id)).map (·.2.2)).getD [] }) }

/-- Members of other modules join an open instance: each an index that no member has, with its source's bytes (R322).
What arrives from another module stands for that module's collective engine. DEDUCED, log 82. -/
def State.joinOutside (s : State) (i : CollInst) (l : List CollOutside) : State :=
  let fits (o : CollOutside) : Bool :=
    o.mem < i.nmemb && s.moduleUp i.part o.module && i.members.all (·.mem != o.mem) && i.outside.all (·.mem != o.mem)
      && (o.bytes.elim true (fun b => b.length = i.readLen o.mem))
  if i.stub || i.formed then s
  else s.setColl { i with outside := i.outside ++ l.foldl (fun r o =>
    if fits o && r.all (·.mem != o.mem) then r ++ [o] else r) [] }

/-- A COLL that has not joined yet reads its descriptor and joins, each program's in issue order (R212). -/
def State.readColl (s : State) (i : CollInst) (m : CollMember) : State :=
  if s.colls.any (fun x => x.stub && x.members.any (fun y => y.by_.ctx = m.by_.ctx && y.id < m.id))
      || s.collBehind m m.desc.toNat 64 then s
  else match s.unitRead (s.collDie m) (.coll i.id m.id) m.desc.toNat 64 with
    | (.wait, s) => s
    | (.fail c va, s) => s.failColl i.id m.id c va
    | (.bytes l, s) =>
      let d := collDescOf l
      if !d.ok m.mem then s.abortColl i (some (m.id, 0x89, m.desc))
      else
        let (j, s) := s.joinColl i m d
        s.formColl j

/-- More bytes of a member's source are read before the instance forms (R268). -/
def State.readAheadColl (s : State) (i : CollInst) (mem n : Nat) : State :=
  match i.members.find? (fun m => m.mem = mem) with
  | none => s
  | some m =>
    if i.stub || i.formed || i.mismatch || !i.full then s
    else match s.collRead i m n with
      | (.wait, s) => s
      | (.fail c va, s) => s.failColl i.id m.id c va
      | (.bytes l, s) => s.setColl { i with ahead := nset i.ahead mem (ngetD i.ahead mem [] ++ l) }

/-- COLL_INSTANCE_FORM (R212, R213, R268, R322): a COLL reads its descriptor and joins; an instance takes the members of
other modules, reads some bytes of a member's source, or, full, forms. -/
def execCollInstanceForm (run : CollRun) (s : State) : Answer :=
  match s.colls.find? (fun i => i.id = run.inst) with
  | none => .next s
  | some i =>
    .next (s.unitStep (if s.collBroken i then s.breakColl i else match run.part, i.stub, i.members with
      | none, true, m :: _ => s.readColl i m
      | none, _, _ => s.formColl run.inst
      | some (.outside l), _, _ => (s.joinOutside i l).formColl run.inst
      | some (.read mem n), _, _ => s.readAheadColl i mem n))

/-- The first member of an instance whose destination cannot be reached any more, with its cause (R408, R409). -/
def State.collCut (s : State) (i : CollInst) : Option (Nat × BitVec 8 × Word) :=
  i.ordered.findSome? fun m =>
    (s.unitFault (s.collDie m) false m.places).map (fun f => (m.id, f.1, BitVec.ofNat 64 f.2))

/-- COLL_COMPLETE (R213, R379): a member's DST is written and performed at package scope. None is written while one of them
cannot be reached; once the first is written all of them have left for their homes, and each is written. -/
def execCollComplete (inst member : Nat) (s : State) : Answer :=
  match s.colls.find? (fun i => i.id = inst) with
  | none => .next s
  | some i =>
    match i.members.find? (fun m => m.mem = member && !m.written) with
    | none => .next s
    | some m =>
      if !i.formed then .next s
      else
        .next (s.unitStep (if s.collBroken i then s.breakColl i else match if i.full then s.collCut i else none with
          | some f => s.abortColl i (some f)
          | none =>
            if s.collBehind m m.dst.toNat i.dstLen then s
            else
              ((((s.unitWrite m.places (ngetD i.results (if i.op = 5 then m.mem else 0) []) (s.tagOf m.by_)).flushFor
                m.by_.ctx.die m.by_.ctx .coll m.id (m.places.map (fun p => .mem p.2.2))).setColl
                { i with members := i.members.filter (fun x => x.id != m.id) }).endMember i.id m none)))

end Sys2Proof.Machine
end

