-- ==== Sys2Proof/Machine/Mordant.lean ====
section
/-!
DEFINITION. Mordant's commands as they run: QRES, QCVT, QPRUNE and QREL (R64, R200 to R203, R230, R232 to R235, R379,
R380, R418).
-/
namespace Sys2Proof.Machine

/-- The engines a Mordant command acts for, with the records it captured. -/
def MordantCmd.engines (m : MordantCmd) : List Nat := m.obs.map (·.1)
def MordantCmd.record (m : MordantCmd) (e : Nat) : BitVec 128 := ngetD m.obs e 0

/-- The command at the head of a core's Mordant queue leaves it: its flags are set, and a fault is its issuer's. -/
def State.endMordant (s : State) (die core : Nat) (m : MordantCmd) (flags : Flags) (f : Option UnitFault) : State :=
  let k := s.core die core
  let s := (s.setCore die core (Core.moved { k with morq := k.morq.filter (fun x => x.id != m.id) } 3 s.time)).orFlags m.by_.ctx flags
  let s := s.unlist die (.mordant die core m.id)
  match f with
  | some f => (s.dropArrivals m.by_.ctx m.id f.code).raiseBy m.by_ f.code 3 f.val f.eng 2
  | none => s

/-- The command itself replaced. -/
def State.setMordant (s : State) (die core : Nat) (m : MordantCmd) : State :=
  let k := s.core die core
  s.setCore die core (Core.moved { k with morq := k.morq.map (fun x => if x.id = m.id then m else x) } 3 s.time)

/-- The first engine whose captured record is not valid at use (R377). -/
def State.badRecordOf (s : State) (m : MordantCmd) : Option Nat :=
  m.engines.find? (fun e => !obValid (m.record e) (s.ctx m.by_.ctx).osbSize)

/-- The record fault of an engine. -/
def MordantCmd.invalid (m : MordantCmd) (e : Nat) : UnitFault := { code := 0x65, val := BitVec.ofNat 64 m.ob, eng := e }

/-! ### QRES and QREL (R200, R203) -/

/-- The zeros of QRES.z, engine by engine up to one whose record is not valid. -/
def State.runQres (s : State) (die core : Nat) (m : MordantCmd) (z : Bool) : State :=
  if !z then s.endMordant die core m 0 none
  else
    let bad := s.badRecordOf m
    let es := match bad with
      | some b => m.engines.filter (· < b)
      | none => m.engines
    let s := es.foldl (fun s e =>
      let r := m.record e
      s.progOsbPut m.by_.ctx e (obBase r * 64) (List.replicate (obLen r * 64) 0)) s
    s.endMordant die core m 0 (bad.map m.invalid)

/-- QREL's record zeroed; a QRES of the record queued behind it has written it already and stands. -/
def State.runQrel (s : State) (die core : Nat) (m : MordantCmd) : State :=
  let c := m.by_.ctx
  let later (e : Nat) : Bool := (s.core die core).morq.any fun x =>
    m.id < x.id && x.by_.ctx = c && x.ob = m.ob && bitOf x.am e && (match x.op with | .qres _ => true | _ => false)
  let s := s.setCtx c ((m.engines.filter (fun e => !later e)).foldl (fun x e =>
    x.setEngine e { x.engine e with ob := nset (x.engine e).ob m.ob 0 }) (s.ctx c))
  s.endMordant die core m 0 none

/-! ### QCVT (R201) -/

/-- Fields of QCVT's sb. -/
def qcvtCount (sb : Word) : Nat := sb.toNat % 2 ^ 32
def qcvtFmt (sb : Word) : Nat := sb.toNat >>> 32 % 16
def qcvtRm (sb : Word) : Nat := sb.toNat >>> 36 % 4
def qcvtSat (sb : Word) : Bool := bitOf sb 38
def qcvtKeep (sb : Word) : Bool := bitOf sb 39

/-- maxq of an element format. -/
def maxq (f : Nat) : Nat := if f = 4 then 448 else if f = 5 then 57344 else if f = 8 then 127 else if f = 10 then 7 else 1

/-- Most source values of an engine: the range's elements, and an accumulator's. -/
def qcvtLimit (src f : Nat) (r : BitVec 128) : Nat :=
  if src = 2 then min (obCount r) (if f = 0 then 512 else 1024) else obCount r

/-- The range checks at the start of a QCVT, in the engines whose records are valid (R380). -/
def State.qcvtStart (s : State) (m : MordantCmd) (src : Nat) : Option UnitFault :=
  let size := (s.ctx m.by_.ctx).spadSize
  let n := qcvtCount m.sb
  let f := qcvtFmt m.sb
  (m.engines.filter (fun e => obValid (m.record e) (s.ctx m.by_.ctx).osbSize)).findSome? fun e =>
    let lim := qcvtLimit src f (m.record e)
    if lim < n then some { code := 0x22, val := BitVec.ofNat 64 lim, eng := e }
    else if src = 0 && size < m.sa.toNat + n * (fmtWidth f / 8) then some { code := 0x21, val := m.sa, eng := e }
    else none

/-- The blocks a QCVT writes, engine by engine; an engine with an invalid record has one that fails. -/
def State.qcvtItems (s : State) (m : MordantCmd) : List (Nat × Nat) :=
  m.engines.flatMap fun e =>
    let r := m.record e
    let n := if obValid r (s.ctx m.by_.ctx).osbSize then (qcvtCount m.sb + obBlock r - 1) / obBlock r else 1
    (List.range n).map (fun b => (e, b))

/-- Elements of block b of an engine. -/
def MordantCmd.blockLen (m : MordantCmd) (e b : Nat) : Nat :=
  min (obBlock (m.record e)) (qcvtCount m.sb - b * obBlock (m.record e))

/-- The source bytes of a block. -/
def State.qcvtBytes (s : State) (die core : Nat) (m : MordantCmd) (src e b : Nat) : UnitRead × State :=
  let w := fmtWidth (qcvtFmt m.sb) / 8
  let at_ := b * obBlock (m.record e) * w
  let n := m.blockLen e b * w
  if src = 0 then (.bytes (s.progSpad m.by_.ctx e (m.sa.toNat + at_) n), s)
  else if src = 2 then
    let a := ((s.ctx m.by_.ctx).engine e).accum (m.sa.toNat % 8)
    (.bytes (toBytes n (a.toNat >>> (8 * at_))), s)
  else s.unitRead die (.mordant die core m.id) ((m.sa.toNat + e * qcvtCount m.sb * w + at_) % 2 ^ 64) n

/-- The block scale QCVT chooses; open stands where TSCALE is zero, a division the manual states no result of. DESIGN
CHOICE, log 49. -/
def blockScale (r : BitVec 128) (xs : List Val) (open_ : Nat) : Nat × Flags :=
  let amax := xs.foldl (fun a x => match x with
    | .fin _ m e => if a.cmp (.fin false m e) < 0 then .fin false m e else a
    | _ => a) (Val.ofInt 0)
  if amax.isZero then (0x3F80, 0)
  else
    let (d, _) := (Val.ofInt (maxq (obEfmt r))).mul (valOf 1 (obTscale r))
    if d.isZero then (open_ % 65536, 0)
    else
      let (q, g) := amax.div d
      let (b, f) := roundTo 2 q 3 true
      (b, g ||| f)

/-- A block quantised: its scale, then its elements. -/
def State.qcvtBlock (s : State) (m : MordantCmd) (e b : Nat) (l : List Byte) : State × Flags :=
  let r := m.record e
  let c := m.by_.ctx
  let f := qcvtFmt m.sb
  let n := m.blockLen e b
  let xs := (splitElems (fmtWidth f) n (ofBytes l)).map (valOf f)
  let choose := obBsen r && !qcvtKeep m.sb
  let (sc, g) := if choose then blockScale r xs (Config.freeChoice s.freeCtr) else (0, 0)
  let s := if choose then { s with freeCtr := s.freeCtr + 1 } else s
  let s := if choose then s.progOsbPut c e (obBase r * 64 + obSoff r + 2 * b) (toBytes 2 sc) else s
  let v := s.rangeNum c e r
  let j := b * obBlock r
  let out := (indexed xs).map fun p =>
    let (q, h) := rangeQuotient r v (j + p.1) p.2
    let (y, k) := roundTo (obEfmt r) q (qcvtRm m.sb) (qcvtSat m.sb)
    (y, h ||| k)
  (s.rangeWrite c e r j (out.map (·.1)), out.foldl (fun a p => a ||| p.2) g)

/-- One block of a QCVT. -/
def State.runQcvt (s : State) (die core : Nat) (m : MordantCmd) (src : Nat) : State :=
  match if m.phase = 0 then s.qcvtStart m src else none with
  | some f => s.endMordant die core m 0 (some f)
  | none =>
    match (s.qcvtItems m)[m.phase]? with
    | none => s.endMordant die core m m.flags none
    | some (e, b) =>
      if !obValid (m.record e) (s.ctx m.by_.ctx).osbSize then s.endMordant die core m m.flags (some (m.invalid e))
      else match s.qcvtBytes die core m src e b with
        | (.wait, s) => s
        | (.fail c va, s) => s.endMordant die core m m.flags (some { code := c, val := BitVec.ofNat 64 va, eng := e })
        | (.bytes l, s) =>
          let (s, f) := s.qcvtBlock m e b l
          let m := { m with phase := m.phase + 1, flags := m.flags ||| f }
          if m.phase < (s.qcvtItems m).length then s.setMordant die core m else s.endMordant die core m m.flags none

/-! ### QPRUNE (R202, R232 to R235) -/

/-- Whether x ranks above y (R233). -/
def outranks (x y : Val) : Bool :=
  let key (v : Val) : Nat := match v with | .nan _ => 2 | .inf _ => 1 | .fin _ _ _ => 0
  key y < key x || (key x = 0 && key y = 0 && 0 < x.abs.cmp y.abs)

/-- A header of the tile a QPRUNE writes. -/
def Prune.header (p : Prune) (zero : Bool) (gen : Nat) : TileHeader :=
  { fmt := p.fmt, n := p.n, log2m := p.log2m, zero := zero, tmeta := p.trans, gk := p.gk, gen := gen, rows := p.rows,
    cols := p.cols }

/-- Row-major element index of position p of group g for groups along rows or along columns (R227). -/
def Prune.cell (p : Prune) (gk : Bool) (g k : Nat) : Nat :=
  let m := 2 ^ p.log2m
  if gk then g / (p.cols / m) * p.cols + g % (p.cols / m) * m + k
  else (g % (p.rows / m) * m + k) * p.cols + g / (p.rows / m)

/-- A listed position: its offset, and the element it keeps or none for a padded one. -/
abbrev Kept := Nat × Option Nat

/-- A list of positions ascending. -/
def sortKept (l : List Kept) : List Kept := l.mergeSort (fun a b => a.1 ≤ b.1)

/-- The positions of a group kept without TRANS: the first N by rank, ties to the lower position (R233). -/
def Prune.group (p : Prune) (vals : Nat → Val) (g : Nat) : List Kept :=
  let m := 2 ^ p.log2m
  let order := (List.range m).mergeSort (fun a b => !outranks (vals (p.cell p.gk g b)) (vals (p.cell p.gk g a)))
  sortKept ((order.take p.n).map (fun k => (k, some (p.cell p.gk g k))))

/-- The row lists and column lists of one M × M block under TRANS, padded (R234). -/
def Prune.block (p : Prune) (vals : Nat → Val) (bi bj : Nat) : List (List Kept) × List (List Kept) :=
  let m := 2 ^ p.log2m
  let idx (r c : Nat) : Nat := (bi * m + r) * p.cols + bj * m + c
  let cells := (List.range m).flatMap (fun r => (List.range m).map (fun c => (r, c)))
  let order := cells.mergeSort (fun a b => !outranks (vals (idx b.1 b.2)) (vals (idx a.1 a.2)))
  let start : List (List Nat) × List (List Nat) := (List.replicate m [], List.replicate m [])
  let (rl, cl) := order.foldl (fun (x : List (List Nat) × List (List Nat)) q =>
    let (r, c) := q
    let a := at' x.1 r []
    let b := at' x.2 c []
    if a.length < p.n && b.length < p.n then (x.1.set r (a ++ [c]), x.2.set c (b ++ [r])) else x) start
  let pad (l : List Nat) (el : Nat → Nat) : List Kept :=
    sortKept (l.map (fun k => (k, some (el k)))
      ++ (((List.range m).filter (fun k => !l.contains k)).take (p.n - l.length)).map (fun k => (k, none)))
  ((indexed rl).map (fun e => pad e.2 (fun c => idx e.1 c)), (indexed cl).map (fun e => pad e.2 (fun r => idx r e.1)))

/-- The lists of every group, primary and transposed (R227, R229, R233, R234). -/
def Prune.lists (p : Prune) (vals : Nat → Val) : List (List Kept) × List (List Kept) :=
  let m := 2 ^ p.log2m
  let groups := p.rows * p.cols / m
  if !p.trans then ((List.range groups).map (p.group vals), [])
  else
    let blocks := (List.range (p.rows / m)).map (fun bi => (List.range (p.cols / m)).map (p.block vals bi))
    let of (bi bj : Nat) := at' (at' blocks bi []) bj ([], [])
    let byRow := (List.range groups).map fun g =>
      let r := g / (p.cols / m)
      at' (of (r / m) (g % (p.cols / m))).1 (r % m) []
    let byCol := (List.range groups).map fun g =>
      let c := g / (p.rows / m)
      at' (of (g % (p.rows / m)) (c / m)).2 (c % m) []
    if p.gk then (byRow, byCol) else (byCol, byRow)

/-- Fields of one width packed from bit 0 up. -/
def packBits (w : Nat) (l : List Nat) : Nat := l.foldr (fun x n => x % 2 ^ w + n <<< w) 0

/-- The regions of a tile: values, metadata, transposed metadata, with the flags of the values' rounding (R226 to R229,
R235). -/
def Prune.regions (p : Prune) (vals : Nat → Val) : List Byte × Flags :=
  let h := p.header false 0
  let (prim, trans) := p.lists vals
  let stored := (prim.flatMap id).map (fun k => match k.2 with
    | some i => roundTo p.fmt (vals i) 0 false
    | none => (0, 0))
  let region (n w : Nat) (l : List Nat) : List Byte := toBytes n (packBits w l)
  let metaOf (l : List (List Kept)) : List Byte := region h.metaBytes p.log2m ((l.flatMap id).map (·.1))
  (region h.valueBytes (fmtWidth p.fmt) (stored.map (·.1)) ++ (if p.n = 2 ^ p.log2m then [] else metaOf prim)
      ++ (if p.trans then metaOf trans else []),
    stored.foldl (fun f x => f ||| x.2) 0)

/-- The start checks of QPRUNE: records, extents, and the trits of the whole source (R232, R377, R418). -/
def State.qpruneStart (s : State) (m : MordantCmd) : Option UnitFault :=
  let p := pruneOf m.sb
  let x := s.ctx m.by_.ctx
  match s.badRecordOf m with
  | some e => some (m.invalid e)
  | none =>
    match m.engines.findSome? (fun e =>
        if obCount (m.record e) < p.rows * p.cols then
          some ({ code := 0x22, val := BitVec.ofNat 64 (obCount (m.record e)), eng := e } : UnitFault)
        else if x.spadSize < p.dst + (p.header false 0).length then
          some { code := 0x21, val := BitVec.ofNat 64 p.dst, eng := e }
        else none) with
    | some f => some f
    | none => m.engines.findSome? fun e =>
      let r := m.record e
      if obEfmt r = 11 then
        let v := s.rangeNum m.by_.ctx e r
        ((List.range (p.rows * p.cols)).find? (fun j => (rangeElem 11 v j).isNone)).map fun j =>
          { code := 0x24, val := BitVec.ofNat 64 (j * 2 ^ 32 + e * 2 ^ 16), eng := e }
      else none

/-- The scaled values of an engine's source, with their flags. -/
def State.qpruneVals (s : State) (m : MordantCmd) (e n : Nat) : List (Val × Flags) :=
  let r := m.record e
  let v := s.rangeNum m.by_.ctx e r
  (List.range n).map (fun j => rangeValue r v j ((rangeElem (obEfmt r) v j).getD 0))

/-- Counters of the blocks a tile touches in an engine. -/
def State.tileGens (s : State) (m : MordantCmd) (e : Nat) : List (Nat × BitVec 32) :=
  let p := pruneOf m.sb
  let a := (s.ctx m.by_.ctx).spadBase + p.dst
  (blocksOf a (p.header false 0).length).map fun b =>
    (b, ngetD (s.core m.by_.ctx.die m.by_.ctx.core).gen (e * 128 + b) 0)

/-- The regions of every engine's tile written; no counter advances yet (R230, R235). -/
def State.qpruneRegions (s : State) (m : MordantCmd) (e : Nat) : State × Flags :=
  let p := pruneOf m.sb
  let vals := s.qpruneVals m e (p.rows * p.cols)
  let (bytes, f) := p.regions (fun i => (at' vals i (Val.ofInt 0, 0)).1)
  (s.progSpadPut mordantRank m.by_.ctx e (p.dst + 16) bytes, vals.foldl (fun a x => a ||| x.2) f)

/-- The final step of an engine's tile: its header and its blocks' counters (R235). -/
def State.qpruneFinal (s : State) (m : MordantCmd) (e : Nat) : State :=
  let p := pruneOf m.sb
  let c := m.by_.ctx
  let now := s.tileGens m e
  let h := p.header false 0
  let vals := ofBytes (s.progSpad c e (p.dst + 16) h.valueBytes)
  let zero := (splitElems (fmtWidth p.fmt) (h.groups * p.n) vals).all (fun b => (valOf p.fmt b).isZero)
  let gen : BitVec 32 := 1 + BitVec.ofNat 32 (now.foldl (fun n b => max n b.2.toNat) 0)
  let s := s.progSpadPut mordantRank c e p.dst (p.header (zero && now = ngetD m.gens e []) gen.toNat).bytes
  let k := s.core c.die c.core
  s.setCore c.die c.core { k with gen := now.foldl (fun g b => nset g (e * 128 + b.1) gen) k.gen }

/-- A QPRUNE: the regions of every engine, then its final step. -/
def State.runQprune (s : State) (die core : Nat) (m : MordantCmd) : State :=
  if m.phase = 0 then
    match s.qpruneStart m with
    | some f => s.endMordant die core m 0 (some f)
    | none =>
      let gens := m.engines.map (fun e => (e, s.tileGens m e))
      let (s, f) := m.engines.foldl (fun (x : State × Flags) e =>
        let (s, f) := x.1.qpruneRegions m e
        (s, x.2 ||| f)) (s, 0)
      s.setMordant die core { m with phase := 1, gens := gens, flags := f }
  else (m.engines.foldl (fun s e => s.qpruneFinal m e) s).endMordant die core m m.flags none

/-- MORDANT_COMMAND_RUN (R189, R200 to R203): the command at the head of the queue goes on by one block, one phase or
to its end; one that acts for no engine ends (R190). DESIGN CHOICE, log 32. -/
def execMordantCommandRun (die core : Nat) (s : State) : Answer :=
  match (s.core die core).morq with
  | [] => .next s
  | m :: _ =>
    .next (s.unitStep (if m.engines.isEmpty then s.endMordant die core m 0 none
      else match m.op with
        | .qres z => s.runQres die core m z
        | .qcvt src => s.runQcvt die core m src
        | .qprune => s.runQprune die core m
        | .qrel => s.runQrel die core m))

end Sys2Proof.Machine
end

