-- ==== Sys2Proof/Machine/EngineScalar.lean ====
section
/-!
DEFINITION. The XF operations on engine scalars, condition bits and shape registers (R184 to R186).
-/
namespace Sys2Proof.Machine

/-- A result of latency 1 in each acting engine (R92, R155). -/
def State.engineResult (s : State) (g : Nat → Engine → List Dest) : State :=
  s.expose 1 (s.acting.flatMap (fun e => g e (s.tileCtx.engine e)))

/-- An engine scalar from the two operands. -/
def State.scalarResult (s : State) (f : Slot) (g : Word → Word → Word) : State :=
  s.engineResult fun e x => [.e e (f.dst.toNat % 16) (g (x.scalar (f.srca.toNat % 16)) (srcE s x f))]

/-- EADD (R184). -/
def execEadd (f : Slot) (s : State) : Answer := guarded (.eadd f) s fun s => s.scalarResult f (fun a b => a + b)

/-- ESUB (R184). -/
def execEsub (f : Slot) (s : State) : Answer := guarded (.esub f) s fun s => s.scalarResult f (fun a b => a - b)

/-- EMUL (R184). -/
def execEmul (f : Slot) (s : State) : Answer := guarded (.emul f) s fun s => s.scalarResult f (fun a b => a * b)

/-- EMOV (R184). -/
def execEmov (f : Slot) (s : State) : Answer := guarded (.emov f) s fun s => s.scalarResult f (fun _ b => b)

/-- The relations of ECMP (R184). -/
def relation (r : Nat) (a b : Word) : Bool :=
  match r with
  | 0 => a == b
  | 1 => a != b
  | 2 => a.slt b
  | 3 => a.sle b
  | 4 => a.ult b
  | _ => a.ule b

/-- ECMP (R184). -/
def execEcmp (f : Slot) (s : State) : Answer :=
  guarded (.ecmp f) s fun s => s.engineResult fun e x =>
    [.k e (f.dst.toNat % 4) (relation (f.md.toNat % 8) (x.scalar (f.srca.toNat % 16)) (srcE s x f))]

/-- Bit at which element B modulo the element count of a register starts (R184). -/
def elemBit (s : State) (x : Engine) (f : Slot) : Nat :=
  let w := fmtWidth f.fmt.toNat
  (srcE s x f).toNat % (16384 / w) * w

/-- EEXT (R184): signed integer formats are sign-extended. -/
def execEext (f : Slot) (s : State) : Answer :=
  guarded (.eext f) s fun s => s.engineResult fun e x =>
    let w := fmtWidth f.fmt.toNat
    let v := (x.tile (slotCluster f) (regNum f.srca)).toNat >>> elemBit s x f % 2 ^ w
    [.e e (f.dst.toNat % 16) (if isSignedFmt f.fmt.toNat then sext64 w v else BitVec.ofNat 64 v)]

/-- EINS (R184). -/
def execEins (f : Slot) (s : State) : Answer :=
  guarded (.eins f) s fun s => s.engineResult fun e x =>
    let w := fmtWidth f.fmt.toNat
    let at_ := elemBit s x f
    [.tile e (slotCluster f) (regNum f.dst)
      (BitVec.ofNat 16384 (((x.scalar (f.srca.toNat % 16)).toNat % 2 ^ w) <<< at_))
      (BitVec.ofNat 16384 ((2 ^ w - 1) <<< at_))]

/-- A condition bit from the elements of a tile under the shape. -/
def State.conditionResult (s : State) (f : Slot) (g : List Nat → Bool) : State :=
  s.engineResult fun e x =>
    let (rows, n, _) := positions x f
    [.k e (f.dst.toNat % 4)
      (g (splitElems (fmtWidth f.fmt.toNat) (rows * n) (x.tile (slotCluster f) (regNum f.srca)).toNat))]

/-- ANYK (R185). -/
def execAnyk (f : Slot) (s : State) : Answer :=
  guarded (.anyk f) s fun s => s.conditionResult f (fun l => l.any (· != 0))

/-- ALLK (R185). -/
def execAllk (f : Slot) (s : State) : Answer :=
  guarded (.allk f) s fun s => s.conditionResult f (fun l => l.all (· != 0))

/-- SETSH (R186): a helper whose own value is illegal keeps its shape. -/
def execSetsh (f : Slot) (s : State) : Answer :=
  guarded (.setsh f) s fun s => s.engineResult fun e x =>
    let v := (srcE s x f).setWidth 8
    if shapeLegal v then [.sh e (f.dst.toNat % 4) v] else []

end Sys2Proof.Machine
end

