-- ==== Sys2Proof/Machine/Exchange.lean ====
section
/-!
DEFINITION. The XF operations on tiles: cluster copies, exchanges, gang reductions and scans, conflict detection and
special functions (R35, R76, R176 to R183).
-/
namespace Sys2Proof.Machine

/-- XCP (R176): the other cluster's tile, bit for bit under the slot's shape. -/
def execXcp (f : Slot) (s : State) : Answer :=
  guarded (.xcp f) s fun s => s.tileResult 1 (slotCluster f) f fun _ x =>
    let (_, _, mask) := positions x f
    ((x.tile (otherCluster (slotCluster f)) (regNum f.srca)).toNat, mask, 0)

/-! ### Exchanges (R35, R177 to R179) -/

/-- The fill value of an element that finds no engine to read (R177); none keeps the destination. -/
def fillElem (s : State) (f : Slot) (own : Nat) : Option Nat :=
  let fm := f.fmt.toNat
  let extreme (neg : Bool) : Nat :=
    if fm = 4 then maxBits fm neg else if isFloatFmt fm then infBits fm neg
    else intBits fm (if neg then intMin fm else intMax fm)
  match f.fill.toNat with
  | 0 => some 0
  | 1 => none
  | 2 => some own
  | 3 => some (litElem fm (s.lit f.lit.toNat))
  | 4 => some (extreme true)
  | 5 => some (extreme false)
  | _ => some (canonicalNan fm)

/-- An exchange of latency n: from gives the engine each engine reads, if it is readable. -/
def State.exchangeTile (s : State) (n : Nat) (f : Slot) (from_ : Nat → Engine → Option Nat) : State :=
  let cl := slotCluster f
  s.tileResult n cl f fun e x =>
    let (rows, k, mask) := positions x f
    match from_ e x with
    | some j => (srcA (s.tileCtx.engine j) cl f, mask, 0)
    | none =>
      let w := fmtWidth f.fmt.toNat
      if f.fill = 2 then (srcA x cl f, mask, 0)
      else match fillElem s f 0 with
        | some v => (joinElems w (List.replicate (rows * k) v), mask, 0)
        | none => (0, 0, 0)

/-- QXCH (R178): a lane that is active or a helper of a live quad is readable (R35); a helper attached to the other half is
not, and gives the fill value. DESIGN CHOICE, log 102. -/
def execQxch (f : Slot) (s : State) : Answer :=
  guarded (.qxch f) s fun s => s.exchangeTile 2 f fun e _ =>
    let m := f.md.toNat % 8
    let j := if m < 4 then e / 4 * 4 + m else e ^^^ (m - 3)
    if s.acting.contains j then some j else none

/-- The engine GSHF reads for engine e and distance v (R179). -/
def shiftFrom (mode e v : Nat) : Option Nat :=
  match mode with
  | 0 => if v ≤ 15 then some v else none
  | 1 => if v ≤ e then some (e - v) else none
  | 2 => if e + v ≤ 15 then some (e + v) else none
  | 3 => some ((e + v) % 16)
  | _ => some (e ^^^ (v % 16))

/-- GSHF (R179): only active lanes are readable (R35). -/
def execGshf (f : Slot) (s : State) : Answer :=
  guarded (.gshf f) s fun s => s.exchangeTile 4 f fun e x =>
    (shiftFrom (f.md.toNat % 8) e (x.scalar (f.srcb.toNat % 16)).toNat).filter (s.activeLanes.contains ·)

/-! ### Gang reductions and scans (R76, R180, R181) -/

/-- The node of a gang operation: op from MOD[1:0], 0 sum, 1 minimum, 2 maximum. -/
def gangNode (s : State) (f : Slot) : Nat → Nat → Nat × Flags :=
  reduceNode (f.md.toNat % 4) f.fmt.toNat s.issue.ftz f.rm.toNat (f.sat = 1)

/-- Element k of the source tile of an engine. -/
def gangElem (s : State) (f : Slot) (e k : Nat) : Nat :=
  let w := fmtWidth f.fmt.toNat
  srcA (s.tileCtx.engine e) (slotCluster f) f >>> (k * w) % 2 ^ w

/-- A gang operation: each acting engine takes, at each of its positions, what a function gives. -/
def State.gangTile (s : State) (f : Slot) (g : Nat → Nat → Option Nat × Flags) : State :=
  let fm := f.fmt.toNat
  s.tileResult 6 (slotCluster f) f fun e x =>
    let (rows, n, mask) := positions x f
    let r := (List.range (rows * n)).map (g e)
    (joinElems (fmtWidth fm) (r.map (fun p => p.1.getD (reduceRoot (f.md.toNat % 4) fm))), mask,
     r.foldl (fun a p => a ||| p.2) 0)

/-- GRED (R76, R180): the fixed tree over the sixteen engines, the active lanes contributing. -/
def execGred (f : Slot) (s : State) : Answer :=
  guarded (.gred f) s fun s => s.gangTile f fun _ k =>
    tree (gangNode s f) 4 ((List.range 16).map fun j =>
      if s.activeLanes.contains j then some (gangElem s f j k) else none)

/-- A running combination: absent operands are skipped. -/
def scanStep (node : Nat → Nat → Nat × Flags) (a : Option Nat × Flags) (y : Nat) : Option Nat × Flags :=
  match a.1 with
  | none => (some y, a.2)
  | some x => (some (node x y).1, a.2 ||| (node x y).2)

/-- GSCAN (R180): the ascending combination of the contributing engines up to each one. -/
def execGscan (f : Slot) (s : State) : Answer :=
  guarded (.gscan f) s fun s => s.gangTile f fun e k =>
    (s.activeLanes.filter (· ≤ e)).foldl (fun a j => scanStep (gangNode s f) a (gangElem s f j k)) (none, 0)

/-- GSEG's results: engine, element index, value and flags, in the linear order (R181). -/
def segScan (s : State) (f : Slot) : List (Nat × Nat × Flags) :=
  let w := fmtWidth f.fmt.toNat
  let cells := s.activeLanes.flatMap fun e =>
    let x := s.tileCtx.engine e
    let (rows, n, _) := positions x f
    let flag := (x.tile (slotCluster f) (regNum f.srcb)).toNat
    (List.range (rows * n)).map fun k => (e, gangElem s f e k, flag >>> (k * w) % 2 ^ w != 0)
  (cells.foldl (fun (a : Option Nat × List (Nat × Nat × Flags)) c =>
    let r := scanStep (gangNode s f) (if c.2.2 then none else a.1, 0) c.2.1
    (r.1, (c.1, r.1.getD 0, r.2) :: a.2)) (none, [])).2.reverse

/-- GSEG (R181): an engine that does not contribute keeps its destination. -/
def execGseg (f : Slot) (s : State) : Answer :=
  guarded (.gseg f) s fun s =>
    let all := segScan s f
    s.tileResult 6 (slotCluster f) f fun e x =>
      let mine := all.filter (fun p => p.1 = e)
      if s.activeLanes.contains e then
        (joinElems (fmtWidth f.fmt.toNat) (mine.map (·.2.1)), (positions x f).2.2, mine.foldl (fun a p => a ||| p.2.2) 0)
      else (0, 0, 0)

/-- CONFD (R182): each index's highest element holds how often it occurs, every other element 0. -/
def execConfd (f : Slot) (s : State) : Answer :=
  guarded (.confd f) s fun s => s.tileResult 4 (slotCluster f) f fun _ x =>
    let (rows, n, mask) := positions x f
    let l := splitElems 32 (rows * n) (srcA x (slotCluster f) f)
    (joinElems 32 ((indexed l).map fun p =>
      if (l.drop (p.1 + 1)).contains p.2 then 0 else l.countP (· = p.2)), mask, 0)

/-! ### Special functions (R73, R183) -/

/-- A special function over the positions. -/
def State.specialTile (s : State) (op : Nat) (f : Slot) : State :=
  let fm := f.fmt.toNat
  s.elementwise 8 (slotCluster f) f fun x _ _ =>
    roundFtz s.issue.ftz fm (special op (readFtz s.issue.ftz fm x)) f.rm.toNat false

/-- VRCP (R183). -/
def execVrcp (f : Slot) (s : State) : Answer := guarded (.vrcp f) s fun s => s.specialTile 0 f

/-- VSQRT (R183). -/
def execVsqrt (f : Slot) (s : State) : Answer := guarded (.vsqrt f) s fun s => s.specialTile 1 f

/-- VRSQ (R183). -/
def execVrsq (f : Slot) (s : State) : Answer := guarded (.vrsq f) s fun s => s.specialTile 2 f

/-- VEXP2 (R183). -/
def execVexp2 (f : Slot) (s : State) : Answer := guarded (.vexp2 f) s fun s => s.specialTile 3 f

/-- VLOG2 (R183). -/
def execVlog2 (f : Slot) (s : State) : Answer := guarded (.vlog2 f) s fun s => s.specialTile 4 f

end Sys2Proof.Machine
end

