-- ==== Sys2Proof/Machine/Integer.lean ====
section
/-!
DEFINITION. The integer group and the I-format arithmetic (R113 to R116).
-/
namespace Sys2Proof.Machine

/-- High half of the signed product (R113). -/
def mulHigh (x y : Word) : Word := (x.signExtend 128 * y.signExtend 128).extractLsb' 64 64

/-- High half of the unsigned product (R113). -/
def mulHighN (x y : Word) : Word := (x.setWidth 128 * y.setWidth 128).extractLsb' 64 64

/-- DIV's value (R114): all ones for a zero divisor; -2^63 by -1 gives -2^63. -/
def divSigned (x y : Word) : Word := if y = 0 then BitVec.allOnes 64 else BitVec.ofInt 64 (x.toInt.tdiv y.toInt)

/-- REM's value (R114): ra for a zero divisor, else the sign of ra. -/
def remSigned (x y : Word) : Word := if y = 0 then x else BitVec.ofInt 64 (x.toInt.tmod y.toInt)

/-- DIVN's value (R114). -/
def divUnsigned (x y : Word) : Word := if y = 0 then BitVec.allOnes 64 else BitVec.ofNat 64 (x.toNat / y.toNat)

/-- REMN's value (R114). -/
def remUnsigned (x y : Word) : Word := if y = 0 then x else BitVec.ofNat 64 (x.toNat % y.toNat)

/-- Bits [5:0] of a count (R113). -/
def shiftCount (x : Word) : Nat := x.toNat % 64

/-- Leading zero bits, 0 to 64 (R113). -/
def leadingZeros (x : Word) : Nat := 64 - bitLen x.toNat

/-- One bits, 0 to 64 (R113). -/
def oneBits (x : Word) : Nat := (bitsOf x).length

/-- ADD (R113). -/
def execAdd (d a b : BitVec 5) (l : BitVec 3) (s : State) : Answer :=
  guarded (.add d a b l) s fun s => s.wr d (s.rd a + s.opB b l)

/-- SUB (R113). -/
def execSub (d a b : BitVec 5) (l : BitVec 3) (s : State) : Answer :=
  guarded (.sub d a b l) s fun s => s.wr d (s.rd a - s.opB b l)

/-- MUL (R113): the low half of the product. -/
def execMul (d a b : BitVec 5) (l : BitVec 3) (s : State) : Answer :=
  guarded (.mul d a b l) s fun s => s.wr d (s.rd a * s.opB b l)

/-- MULH (R113): the high half of the signed product. -/
def execMulh (d a b : BitVec 5) (l : BitVec 3) (s : State) : Answer :=
  guarded (.mulh d a b l) s fun s => s.wr d (mulHigh (s.rd a) (s.opB b l))

/-- MULHN (R113): the high half of the unsigned product. -/
def execMulhn (d a b : BitVec 5) (l : BitVec 3) (s : State) : Answer :=
  guarded (.mulhn d a b l) s fun s => s.wr d (mulHighN (s.rd a) (s.opB b l))

/-- DIV (R114). -/
def execDiv (d a b : BitVec 5) (l : BitVec 3) (s : State) : Answer :=
  guarded (.div d a b l) s fun s => s.wr d (divSigned (s.rd a) (s.opB b l))

/-- DIVN (R114). -/
def execDivn (d a b : BitVec 5) (l : BitVec 3) (s : State) : Answer :=
  guarded (.divn d a b l) s fun s => s.wr d (divUnsigned (s.rd a) (s.opB b l))

/-- REM (R114). -/
def execRem (d a b : BitVec 5) (l : BitVec 3) (s : State) : Answer :=
  guarded (.rem d a b l) s fun s => s.wr d (remSigned (s.rd a) (s.opB b l))

/-- REMN (R114). -/
def execRemn (d a b : BitVec 5) (l : BitVec 3) (s : State) : Answer :=
  guarded (.remn d a b l) s fun s => s.wr d (remUnsigned (s.rd a) (s.opB b l))

/-- AND (R113). -/
def execAnd (d a b : BitVec 5) (l : BitVec 3) (s : State) : Answer :=
  guarded (.and d a b l) s fun s => s.wr d (s.rd a &&& s.opB b l)

/-- OR (R113). -/
def execOr (d a b : BitVec 5) (l : BitVec 3) (s : State) : Answer :=
  guarded (.or d a b l) s fun s => s.wr d (s.rd a ||| s.opB b l)

/-- XOR (R113). -/
def execXor (d a b : BitVec 5) (l : BitVec 3) (s : State) : Answer :=
  guarded (.xor d a b l) s fun s => s.wr d (s.rd a ^^^ s.opB b l)

/-- SHL (R113): bits B[63:6] of the count are ignored. -/
def execShl (d a b : BitVec 5) (l : BitVec 3) (s : State) : Answer :=
  guarded (.shl d a b l) s fun s => s.wr d (s.rd a <<< shiftCount (s.opB b l))

/-- SHR (R113). -/
def execShr (d a b : BitVec 5) (l : BitVec 3) (s : State) : Answer :=
  guarded (.shr d a b l) s fun s => s.wr d (s.rd a >>> shiftCount (s.opB b l))

/-- SHA (R113): copies of ra[63] enter. -/
def execSha (d a b : BitVec 5) (l : BitVec 3) (s : State) : Answer :=
  guarded (.sha d a b l) s fun s => s.wr d ((s.rd a).sshiftRight (shiftCount (s.opB b l)))

/-- MIN (R113), signed. -/
def execMin (d a b : BitVec 5) (l : BitVec 3) (s : State) : Answer :=
  guarded (.min d a b l) s fun s => s.wr d (if (s.rd a).slt (s.opB b l) then s.rd a else s.opB b l)

/-- MAX (R113), signed. -/
def execMax (d a b : BitVec 5) (l : BitVec 3) (s : State) : Answer :=
  guarded (.max d a b l) s fun s => s.wr d (if (s.rd a).slt (s.opB b l) then s.opB b l else s.rd a)

/-- MINN (R113), unsigned. -/
def execMinn (d a b : BitVec 5) (l : BitVec 3) (s : State) : Answer :=
  guarded (.minn d a b l) s fun s => s.wr d (if (s.rd a).ult (s.opB b l) then s.rd a else s.opB b l)

/-- MAXN (R113), unsigned. -/
def execMaxn (d a b : BitVec 5) (l : BitVec 3) (s : State) : Answer :=
  guarded (.maxn d a b l) s fun s => s.wr d (if (s.rd a).ult (s.opB b l) then s.opB b l else s.rd a)

/-- SEL (R113): the old rd is the condition. -/
def execSel (d a b : BitVec 5) (l : BitVec 3) (s : State) : Answer :=
  guarded (.sel d a b l) s fun s => s.wr d (if s.rd d != 0 then s.rd a else s.opB b l)

/-- CMPEQ (R113). -/
def execCmpeq (d a b : BitVec 5) (l : BitVec 3) (s : State) : Answer :=
  guarded (.cmpeq d a b l) s fun s => s.wr d (ofBool (s.rd a == s.opB b l))

/-- CMPNE (R113). -/
def execCmpne (d a b : BitVec 5) (l : BitVec 3) (s : State) : Answer :=
  guarded (.cmpne d a b l) s fun s => s.wr d (ofBool (s.rd a != s.opB b l))

/-- CMPLT (R113), signed. -/
def execCmplt (d a b : BitVec 5) (l : BitVec 3) (s : State) : Answer :=
  guarded (.cmplt d a b l) s fun s => s.wr d (ofBool ((s.rd a).slt (s.opB b l)))

/-- CMPLE (R113), signed. -/
def execCmple (d a b : BitVec 5) (l : BitVec 3) (s : State) : Answer :=
  guarded (.cmple d a b l) s fun s => s.wr d (ofBool ((s.rd a).sle (s.opB b l)))

/-- CMPLTN (R113), unsigned. -/
def execCmpltn (d a b : BitVec 5) (l : BitVec 3) (s : State) : Answer :=
  guarded (.cmpltn d a b l) s fun s => s.wr d (ofBool ((s.rd a).ult (s.opB b l)))

/-- CMPLEN (R113), unsigned. -/
def execCmplen (d a b : BitVec 5) (l : BitVec 3) (s : State) : Answer :=
  guarded (.cmplen d a b l) s fun s => s.wr d (ofBool ((s.rd a).ule (s.opB b l)))

/-- CLZ (R113). -/
def execClz (d a : BitVec 5) (s : State) : Answer :=
  guarded (.clz d a) s fun s => s.wr d (BitVec.ofNat 64 (leadingZeros (s.rd a)))

/-- POPC (R113). -/
def execPopc (d a : BitVec 5) (s : State) : Answer :=
  guarded (.popc d a) s fun s => s.wr d (BitVec.ofNat 64 (oneBits (s.rd a)))

/-- MOVL (R116): the literal sign-extended from 32 bits. -/
def execMovl (d : BitVec 5) (l : BitVec 3) (s : State) : Answer :=
  guarded (.movl d l) s fun s => s.wr d ((s.lit l.toNat).signExtend 64)

/-- MOVL.d (R116): literal j below literal j + 1. -/
def execMovlD (d : BitVec 5) (l : BitVec 3) (s : State) : Answer :=
  guarded (.movlD d l) s fun s => s.wr d (s.lit (l.toNat + 1) ++ s.lit l.toNat)

/-- LEA (R113). -/
def execLea (d a b : BitVec 5) (l : BitVec 3) (n : BitVec 2) (s : State) : Answer :=
  guarded (.lea d a b l n) s fun s => s.wr d (s.rd a + (s.opB b l <<< n.toNat))

/-- ADDI (R115). -/
def execAddi (d a : BitVec 5) (i : BitVec 16) (s : State) : Answer :=
  guarded (.addi d a i) s fun s => s.wr d (s.rd a + i.signExtend 64)

/-- ANDI (R115). -/
def execAndi (d a : BitVec 5) (i : BitVec 16) (s : State) : Answer :=
  guarded (.andi d a i) s fun s => s.wr d (s.rd a &&& i.setWidth 64)

/-- ORI (R115). -/
def execOri (d a : BitVec 5) (i : BitVec 16) (s : State) : Answer :=
  guarded (.ori d a i) s fun s => s.wr d (s.rd a ||| i.setWidth 64)

/-- XORI (R115). -/
def execXori (d a : BitVec 5) (i : BitVec 16) (s : State) : Answer :=
  guarded (.xori d a i) s fun s => s.wr d (s.rd a ^^^ i.setWidth 64)

/-- SHLI (R115). -/
def execShli (d a : BitVec 5) (n : BitVec 6) (s : State) : Answer :=
  guarded (.shli d a n) s fun s => s.wr d (s.rd a <<< n.toNat)

/-- SHRI (R115). -/
def execShri (d a : BitVec 5) (n : BitVec 6) (s : State) : Answer :=
  guarded (.shri d a n) s fun s => s.wr d (s.rd a >>> n.toNat)

/-- SHAI (R115). -/
def execShai (d a : BitVec 5) (n : BitVec 6) (s : State) : Answer :=
  guarded (.shai d a n) s fun s => s.wr d ((s.rd a).sshiftRight n.toNat)

/-- CMPLTI (R115). -/
def execCmplti (d a : BitVec 5) (i : BitVec 16) (s : State) : Answer :=
  guarded (.cmplti d a i) s fun s => s.wr d (ofBool ((s.rd a).slt (i.signExtend 64)))

end Sys2Proof.Machine
end

