-- ==== Sys2Proof/Machine/Run.lean ====
section
/-!
DEFINITION. The meaning of each word and slot as a bundle runs it: the same meanings that exec names, for a bundle
cannot call exec itself.
-/
namespace Sys2Proof.Machine

/-- The state a meaning answers; no word or slot of a bundle whose checks have passed answers anything else. -/
def stateAfter (s : State) : Answer → State
  | .next t => t
  | _ => s

/-- A word or slot of the bundle being issued. -/
def State.runWord (s : State) (i : Instr) : State :=
  stateAfter s (match i with
  | .add d a b l => execAdd d a b l s
  | .sub d a b l => execSub d a b l s
  | .mul d a b l => execMul d a b l s
  | .mulh d a b l => execMulh d a b l s
  | .mulhn d a b l => execMulhn d a b l s
  | .div d a b l => execDiv d a b l s
  | .divn d a b l => execDivn d a b l s
  | .rem d a b l => execRem d a b l s
  | .remn d a b l => execRemn d a b l s
  | .and d a b l => execAnd d a b l s
  | .or d a b l => execOr d a b l s
  | .xor d a b l => execXor d a b l s
  | .shl d a b l => execShl d a b l s
  | .shr d a b l => execShr d a b l s
  | .sha d a b l => execSha d a b l s
  | .clz d a => execClz d a s
  | .popc d a => execPopc d a s
  | .min d a b l => execMin d a b l s
  | .max d a b l => execMax d a b l s
  | .minn d a b l => execMinn d a b l s
  | .maxn d a b l => execMaxn d a b l s
  | .sel d a b l => execSel d a b l s
  | .cmpeq d a b l => execCmpeq d a b l s
  | .cmpne d a b l => execCmpne d a b l s
  | .cmplt d a b l => execCmplt d a b l s
  | .cmple d a b l => execCmple d a b l s
  | .cmpltn d a b l => execCmpltn d a b l s
  | .cmplen d a b l => execCmplen d a b l s
  | .movl d l => execMovl d l s
  | .movlD d l => execMovlD d l s
  | .lea d a b l n => execLea d a b l n s
  | .addi d a imm => execAddi d a imm s
  | .andi d a imm => execAndi d a imm s
  | .ori d a imm => execOri d a imm s
  | .xori d a imm => execXori d a imm s
  | .shli d a n => execShli d a n s
  | .shri d a n => execShri d a n s
  | .shai d a n => execShai d a n s
  | .cmplti d a imm => execCmplti d a imm s
  | .ldb d a la o => execLdb d a la o s
  | .ldh d a la o => execLdh d a la o s
  | .ldw d a la o => execLdw d a la o s
  | .ldd d a la o => execLdd d a la o s
  | .ldbs d a la o => execLdbs d a la o s
  | .ldhs d a la o => execLdhs d a la o s
  | .ldws d a la o => execLdws d a la o s
  | .loadAcquire d a la sc sz o => execLoadAcquire d a la sc sz o s
  | .stb d a la o => execStb d a la o s
  | .sth d a la o => execSth d a la o s
  | .stw d a la o => execStw d a la o s
  | .std d a la o => execStd d a la o s
  | .storeRelease d a la sc sz o => execStoreRelease d a la sc sz o s
  | .amoadd d a b la sc o z => execAmoadd d a b la sc o z s
  | .amofadd d a b la sc o z => execAmofadd d a b la sc o z s
  | .amoand d a b la sc o z => execAmoand d a b la sc o z s
  | .amoor d a b la sc o z => execAmoor d a b la sc o z s
  | .amoxor d a b la sc o z => execAmoxor d a b la sc o z s
  | .amomin d a b la sc o z => execAmomin d a b la sc o z s
  | .amomax d a b la sc o z => execAmomax d a b la sc o z s
  | .amominn d a b la sc o z => execAmominn d a b la sc o z s
  | .amomaxn d a b la sc o z => execAmomaxn d a b la sc o z s
  | .amoswp d a b la sc o z => execAmoswp d a b la sc o z s
  | .amocas d a b la sc o z => execAmocas d a b la sc o z s
  | .fence sc => execFence sc s
  | .fencex y x sc => execFencex y x sc s
  | .br t => execBr t s
  | .brl t => execBrl t s
  | .bz a t => execBz a t s
  | .bnz a t => execBnz a t s
  | .buk k t => execBuk k t s
  | .bunk k t => execBunk k t s
  | .bdk k j t => execBdk k j t s
  | .bdkLong k j t => execBdkLong k j t s
  | .bdnk k j t => execBdnk k j t s
  | .bdnkLong k j t => execBdnkLong k j t s
  | .loop a t => execLoop a t s
  | .loops a t => execLoops a t s
  | .jr a => execJr a s
  | .jrl d a => execJrl d a s
  | .rdfirst d n => execRdfirst d n s
  | .rdlane d n b l => execRdlane d n b l s
  | .movam d => execMovam d s
  | .setam b l => execSetam b l s
  | .lstr d b l => execLstr d b l s
  | .lbrk b l => execLbrk b l s
  | .bararv n => execBararv n s
  | .barwt n => execBarwt n s
  | .waitc c b l => execWaitc c b l s
  | .yield b l => execYield b l s
  | .slotwait d a sc side => execSlotwait d a sc side s
  | .slotsig a sc side => execSlotsig a sc side s
  | .nop => execNop s
  | .trap n => execTrap n s
  | .rte => execRte s
  | .csrr d c => execCsrr d c s
  | .csrw a c => execCsrw a c s
  | .csrs d a c => execCsrs d a c s
  | .csrc d a c => execCsrc d a c s
  | .ldcwt d a => execLdcwt d a s
  | .lkfetch d a n => execLkfetch d a n s
  | .lkdedup d a => execLkdedup d a s
  | .lkdedupClear d a => execLkdedupClear d a s
  | .lkpool d a b o w => execLkpool d a b o w s
  | .lkhand a b t => execLkhand a b t s
  | .mset a b n => execMset a b n s
  | .mloop a b n => execMloop a b n s
  | .mtern a b n => execMtern a b n s
  | .qres a b z n => execQres a b z n s
  | .qcvt a b w n => execQcvt a b w n s
  | .qprune a b n => execQprune a b n s
  | .qrel n => execQrel n s
  | .cpyset a b n => execCpyset a b n s
  | .cpy a b g n => execCpy a b g n s
  | .cpyy a b j g n => execCpyy a b j g n s
  | .ringset a b sc side n => execRingset a b sc side n s
  | .gthrSp a b => execGthrSp a b s
  | .gthrOb a b n => execGthrOb a b n s
  | .coll a b => execColl a b s
  | .turn a b la => execTurn a b la s
  | .linkst a la => execLinkst a la s
  | .nodeset a b n => execNodeset a b n s
  | .nodeput a b la n => execNodeput a b la n s
  | .launch a b la => execLaunch a b la s
  | .vadd cl f => execVadd cl f s
  | .vsub cl f => execVsub cl f s
  | .vmul cl f => execVmul cl f s
  | .vfma cl f => execVfma cl f s
  | .vfms cl f => execVfms cl f s
  | .vfnma cl f => execVfnma cl f s
  | .vmin cl f => execVmin cl f s
  | .vmax cl f => execVmax cl f s
  | .vabs cl f => execVabs cl f s
  | .vneg cl f => execVneg cl f s
  | .vmov cl f => execVmov cl f s
  | .vsel cl f => execVsel cl f s
  | .vcmpeq cl f => execVcmpeq cl f s
  | .vcmplt cl f => execVcmplt cl f s
  | .vcmple cl f => execVcmple cl f s
  | .vand cl f => execVand cl f s
  | .vor cl f => execVor cl f s
  | .vxor cl f => execVxor cl f s
  | .vnot cl f => execVnot cl f s
  | .vshl cl f => execVshl cl f s
  | .vshr cl f => execVshr cl f s
  | .vsha cl f => execVsha cl f s
  | .vcvt cl f => execVcvt cl f s
  | .vclamp cl f => execVclamp cl f s
  | .vbcast cl f => execVbcast cl f s
  | .viota cl f => execViota cl f s
  | .vrsum cl f => execVrsum cl f s
  | .vcsum cl f => execVcsum cl f s
  | .vrmax cl f => execVrmax cl f s
  | .vcmax cl f => execVcmax cl f s
  | .vtrn cl f => execVtrn cl f s
  | .lds f => execLds f s
  | .sts f => execSts f s
  | .ldg f => execLdg f s
  | .stg f => execStg f s
  | .ldo f => execLdo f s
  | .sto f => execSto f s
  | .gath f => execGath f s
  | .scat f => execScat f s
  | .scadd f => execScadd f s
  | .vatom f => execVatom f s
  | .xcp f => execXcp f s
  | .qxch f => execQxch f s
  | .gshf f => execGshf f s
  | .gred f => execGred f s
  | .gscan f => execGscan f s
  | .gseg f => execGseg f s
  | .confd f => execConfd f s
  | .vrcp f => execVrcp f s
  | .vsqrt f => execVsqrt f s
  | .vrsq f => execVrsq f s
  | .vexp2 f => execVexp2 f s
  | .vlog2 f => execVlog2 f s
  | .eext f => execEext f s
  | .eins f => execEins f s
  | .eadd f => execEadd f s
  | .esub f => execEsub f s
  | .emul f => execEmul f s
  | .emov f => execEmov f s
  | .ecmp f => execEcmp f s
  | .anyk f => execAnyk f s
  | .allk f => execAllk f s
  | .setsh f => execSetsh f s
  | _ => .next s)

end Sys2Proof.Machine
end

