-- ==== Sys2Proof/Machine/Uses.lean ====
section
/-!
DEFINITION. What the words and slots of a bundle use, as far as a bundle's checks and holds ask: tile registers,
accumulators and records, access paths, wait counters and queues (R104 to R106, R124, R158, R189, R192, R368).
-/
namespace Sys2Proof.Machine

/-- The scalar register a word writes as it issues or when its access returns (R102). -/
def scalarDest : Instr → Option (BitVec 5)
  | .add d .. | .sub d .. | .mul d .. | .mulh d .. | .mulhn d .. | .div d .. | .divn d .. | .rem d .. | .remn d ..
  | .and d .. | .or d .. | .xor d .. | .shl d .. | .shr d .. | .sha d .. | .clz d .. | .popc d .. | .min d ..
  | .max d .. | .minn d .. | .maxn d .. | .sel d .. | .cmpeq d .. | .cmpne d .. | .cmplt d .. | .cmple d ..
  | .cmpltn d .. | .cmplen d .. | .movl d .. | .movlD d .. | .lea d .. | .addi d .. | .andi d .. | .ori d ..
  | .xori d .. | .shli d .. | .shri d .. | .shai d .. | .cmplti d .. => some d
  | .ldb d .. | .ldh d .. | .ldw d .. | .ldd d .. | .ldbs d .. | .ldhs d .. | .ldws d .. | .loadAcquire d .. => some d
  | .amoadd d .. | .amofadd d .. | .amoand d .. | .amoor d .. | .amoxor d .. | .amomin d .. | .amomax d ..
  | .amominn d .. | .amomaxn d .. | .amoswp d .. | .amocas d .. => some d
  | .brl .. => some 31
  | .jrl d .. | .rdfirst d .. | .rdlane d .. | .movam d | .slotwait d .. | .csrr d .. | .csrs d .. | .csrc d .. => some d
  | .loops a .. | .turn a .. | .linkst a .. | .launch a .. => some a
  | .lkdedup d .. | .lkdedupClear d .. => some d
  | _ => none

/-- The scalar registers whose values a word's result, address or choice derives from; key 33 stands for the engines'
registers (R269). -/
def depSources : Instr → List Nat
  | .add _ a b _ | .sub _ a b _ | .mul _ a b _ | .mulh _ a b _ | .mulhn _ a b _ | .div _ a b _ | .divn _ a b _
  | .rem _ a b _ | .remn _ a b _ | .and _ a b _ | .or _ a b _ | .xor _ a b _ | .shl _ a b _ | .shr _ a b _
  | .sha _ a b _ | .min _ a b _ | .max _ a b _ | .minn _ a b _ | .maxn _ a b _ | .cmpeq _ a b _ | .cmpne _ a b _
  | .cmplt _ a b _ | .cmple _ a b _ | .cmpltn _ a b _ | .cmplen _ a b _ | .lea _ a b _ _ => [a.toNat, b.toNat]
  | .sel d a b _ => [d.toNat, a.toNat, b.toNat]
  | .clz _ a | .popc _ a | .addi _ a _ | .andi _ a _ | .ori _ a _ | .xori _ a _ | .shli _ a _ | .shri _ a _
  | .shai _ a _ | .cmplti _ a _ => [a.toNat]
  | .ldb _ a _ _ | .ldh _ a _ _ | .ldw _ a _ _ | .ldd _ a _ _ | .ldbs _ a _ _ | .ldhs _ a _ _ | .ldws _ a _ _
  | .loadAcquire _ a _ _ _ _ => [a.toNat]
  | .stb d a _ _ | .sth d a _ _ | .stw d a _ _ | .std d a _ _ | .storeRelease d a _ _ _ _ => [d.toNat, a.toNat]
  | .amoadd d a b _ _ _ _ | .amofadd d a b _ _ _ _ | .amoand d a b _ _ _ _ | .amoor d a b _ _ _ _
  | .amoxor d a b _ _ _ _ | .amomin d a b _ _ _ _ | .amomax d a b _ _ _ _ | .amominn d a b _ _ _ _
  | .amomaxn d a b _ _ _ _ | .amoswp d a b _ _ _ _ | .amocas d a b _ _ _ _ => [d.toNat, a.toNat, b.toNat]
  | .bz a _ | .bnz a _ | .jr a | .jrl _ a | .loop a _ | .loops a _ => [a.toNat]
  | .setam b _ | .lbrk b _ => [b.toNat]
  | .slotwait _ a _ _ | .slotsig a _ _ => [a.toNat]
  | .launch a b _ | .nodeput a b _ _ => [a.toNat, b.toNat]
  | .rdfirst _ _ | .buk _ _ | .bunk _ _ | .bdk _ _ _ | .bdkLong _ _ _ | .bdnk _ _ _ | .bdnkLong _ _ _ => [33]
  | .rdlane _ _ b _ => [33, b.toNat]
  | .lkdedup _ a | .lkdedupClear _ a => [a.toNat]
  | _ => []

/-- Whether a word decides which bundles or lanes come after it. -/
def steers : Instr → Bool
  | .bz _ _ | .bnz _ _ | .buk _ _ | .bunk _ _ | .bdk _ _ _ | .bdkLong _ _ _ | .bdnk _ _ _ | .bdnkLong _ _ _ | .jr _
  | .jrl _ _ | .loop _ _ | .loops _ _ | .lbrk _ _ | .setam _ _ => true
  | _ => false

/-- Whether a slot reads or writes a scratchpad or an OSB as its bundle issues. -/
def touchesStore : Instr → Bool
  | .lds _ | .sts _ | .ldo _ | .sto _ => true
  | _ => false

/-- Whether an acquire of a part is still to be performed. -/
def State.acquiring (s : State) (p : PartRef) : Bool := s.accs.any (fun a => a.who = p && a.acq.isSome && a.isOpen)

/-- The uses of the four register fields of a slot, with the cluster of its destination and of its sources (R89, R158). -/
structure SlotUse where
  slot : Slot
  dstCl : Cluster
  srcCl : Cluster
  dst : FieldUse
  srca : FieldUse
  srcb : FieldUse
  srcc : FieldUse
  deriving DecidableEq, Repr

/-- Uses of a VA or VB slot. -/
def useV (cl : Cluster) (f : Slot) (srca srcb srcc : FieldUse) : Option SlotUse :=
  some { slot := f, dstCl := cl, srcCl := cl, dst := .tile, srca := srca, srcb := srcb, srcc := srcc }

/-- Uses of a MEM or XF slot. -/
def useM (f : Slot) (dst srca srcb srcc : FieldUse) : Option SlotUse :=
  some { slot := f, dstCl := slotCluster f, srcCl := slotCluster f, dst := dst, srca := srca, srcb := srcb, srcc := srcc }

/-- The uses of a tile operation's fields (R158). -/
def slotUse : Instr → Option SlotUse
  | .vadd cl f | .vsub cl f | .vmul cl f | .vmin cl f | .vmax cl f | .vcmpeq cl f | .vcmplt cl f | .vcmple cl f
  | .vand cl f | .vor cl f | .vxor cl f | .vshl cl f | .vshr cl f | .vsha cl f =>
    useV cl f .tileOrAcc (srcbUse f.kind.toNat) .zero
  | .vfma cl f | .vfms cl f | .vfnma cl f | .vsel cl f | .vclamp cl f =>
    useV cl f .tileOrAcc (srcbUse f.kind.toNat) .tile
  | .vabs cl f | .vneg cl f | .vmov cl f | .vnot cl f | .vrsum cl f | .vcsum cl f | .vrmax cl f | .vcmax cl f
  | .vtrn cl f | .vcvt cl f => useV cl f .tileOrAcc .zero .zero
  | .vbcast cl f => useV cl f (if f.kind = 0 then .tile else .zero) .zero .zero
  | .viota cl f => useV cl f .zero .zero .zero
  | .lds f | .ldg f => useM f .tile .e .e .zero
  | .sts f | .stg f => useM f .zero .e .e .tile
  | .ldo f => useM f .tile .e .obn .zero
  | .sto f => useM f .zero .e .obn .tile
  | .gath f => useM f .tile .e .tile .zero
  | .scat f | .scadd f => useM f .zero .e .tile .tile
  | .vatom f => useM f (if f.rm = 2 then .tile else .zero) .e .tile .tile
  | .xcp f => some { slot := f, dstCl := slotCluster f, srcCl := otherCluster (slotCluster f), dst := .tile,
                     srca := .tile, srcb := .zero, srcc := .zero }
  | .qxch f | .gred f | .gscan f | .confd f => useM f .tile .tile .zero .zero
  | .gshf f => useM f .tile .tile .e .zero
  | .gseg f => useM f .tile .tile .tile .zero
  | .vrcp f | .vsqrt f | .vrsq f | .vexp2 f | .vlog2 f => useM f .tile .tileOrAcc .zero .zero
  | .eext f => useM f .e .tile .e .zero
  | .eins f => useM f .tile .e .e .zero
  | .anyk f | .allk f => useM f .two .tile .zero .zero
  | _ => none

/-- What the allocation check numbers: kind 1 an A register, 2 a B register, 3 an accumulator, 4 a record (R361). -/
abbrev Ref := Nat × Nat

/-- The tile register of a cluster. -/
def tileRef (cl : Cluster) (v : BitVec 7) : Ref := (if cl = .a then 1 else 2, regNum v)

/-- The reference of one field. -/
def fieldRef (cl : Cluster) (u : FieldUse) (kind : BitVec 3) (v : BitVec 7) : List Ref :=
  match u with
  | .tile => [tileRef cl v]
  | .tileOrAcc => if kind = 2 then [(3, v.toNat % 8)] else [tileRef cl v]
  | .obn => [(4, v.toNat % 8)]
  | _ => []

/-- The references of a tile operation, in the order DST, SRCA, SRCB, SRCC. -/
def slotRefs (i : Instr) : List Ref :=
  match slotUse i with
  | none => []
  | some u => fieldRef u.dstCl u.dst u.slot.kind u.slot.dst ++ fieldRef u.srcCl u.srca u.slot.kind u.slot.srca
      ++ fieldRef u.srcCl u.srcb u.slot.kind u.slot.srcb ++ fieldRef u.srcCl u.srcc u.slot.kind u.slot.srcc

/-- The OSB records a copy or ring names through a layout record. -/
def tlRefs (v : BitVec 128) : List Ref := if tlKind v = 3 then [(4, tlOb v)] else []

/-- The references of an engine command, through the records it captures (R368). DEDUCED, log 28. -/
def State.commandRefs (s : State) : Instr → List Ref
  | .mloop _ _ n | .mtern _ _ n =>
    let m := s.mg n.toNat
    (3, mgAcc m) :: (mgObs m).map (fun o => (4, o))
  | .qres _ _ _ n | .qprune _ _ n | .qrel n | .gthrOb _ _ n => [(4, n.toNat)]
  | .qcvt a _ c n => (4, n.toNat) :: (if c = 2 then [(3, (s.rd a).toNat % 8)] else [])
  | .cpy _ _ _ n | .cpyy _ _ _ _ n => tlRefs (s.tl (2 * n.toNat)) ++ tlRefs (s.tl (2 * n.toNat + 1))
  | .ringset _ _ _ _ n => tlRefs (s.tl n.toNat)
  | _ => []

/-- Whether a reference lies within a program's allocation (R32). -/
def Context.holds (x : Context) (r : Ref) : Bool :=
  match r.1 with
  | 1 => r.2 < x.regsA
  | 2 => r.2 < x.regsB
  | 3 => r.2 < x.lrec.acc
  | _ => r.2 < x.lrec.osbR

/-! ### The scoreboard's entries (R105, R192) -/

/-- The unit whose queue a command enters: 1 the matrix sequencer, 2 Mordant, 0 another or none. -/
def commandUnit : Instr → Nat
  | .mloop .. | .mtern .. => 1
  | .qres .. | .qcvt .. | .qprune .. | .qrel .. => 2
  | _ => 0

/-- Entries a word or slot reads or writes: accumulators and records. -/
def State.entries (s : State) (i : Instr) : List Ref := (slotRefs i ++ s.commandRefs i).filter (fun r => 3 ≤ r.1)

/-- Whether an entry is busy for a word of a unit: an entry made busy by that unit's own queue alone holds nothing. -/
def State.entryBusy (s : State) (c : CtxRef) (unit : Nat) (r : Ref) : Bool :=
  let k := s.core c.die c.core
  let mat := k.matq.any (fun m => m.by_.ctx = c && (if r.1 = 3 then m.accs else m.recs).contains r.2)
  let mor := k.morq.any (fun m => m.by_.ctx = c && (if r.1 = 3 then m.accs.contains r.2 else m.ob = r.2))
  (mat && unit != 1) || (mor && unit != 2)

/-! ### Paths (R124, R209) -/

/-- Whether a word accesses memory as a scalar word: loads, stores, atomics, the LOOPS stream, LDCWT sources, ring
descriptors, and the records of NODEPUT and LAUNCH. -/
def isScalarAccess : Instr → Bool
  | .ldb .. | .ldh .. | .ldw .. | .ldd .. | .ldbs .. | .ldhs .. | .ldws .. | .loadAcquire ..
  | .stb .. | .sth .. | .stw .. | .std .. | .storeRelease ..
  | .amoadd .. | .amofadd .. | .amoand .. | .amoor .. | .amoxor .. | .amomin .. | .amomax .. | .amominn ..
  | .amomaxn .. | .amoswp .. | .amocas .. | .loops .. | .ldcwt .. | .slotwait .. | .slotsig ..
  | .nodeput .. | .launch .. | .lkfetch .. => true
  | _ => false

/-- The path a word or slot uses, if any. -/
def State.pathUse (s : State) (i : Instr) : List Path :=
  if isScalarAccess i then [s.scalarPath]
  else match i with
    | .lds _ | .sts _ | .ldg _ | .stg _ | .ldo _ | .sto _ | .gath _ | .scat _ | .scadd _ | .vatom _ => [.tile]
    | .mloop .. | .mtern .. => [.matrix]
    | .qres .. | .qcvt .. | .qprune .. | .qrel .. => [.quant]
    | .cpy .. | .cpyy .. | .ringset .. => [.copy]
    | .gthrSp .. | .gthrOb .. => [.gather]
    | .coll .. => [.coll]
    | _ => []

/-! ### Counters and queues (R104, R189, R206) -/

/-- The counter a word or slot raises, and by how much. -/
def State.counterUse (s : State) (i : Instr) : List (Nat × Nat) :=
  match i with
  | .ldb .. | .ldh .. | .ldw .. | .ldd .. | .ldbs .. | .ldhs .. | .ldws .. | .loadAcquire .. | .ldg _ | .gath _
  | .lkfetch .. => [(0, 1)]
  | .stb .. | .sth .. | .stw .. | .std .. | .storeRelease .. | .stg _ | .scat _ | .scadd _ | .slotsig .. => [(1, 1)]
  | .amoadd d .. | .amofadd d .. | .amoand d .. | .amoor d .. | .amoxor d .. | .amomin d .. | .amomax d ..
  | .amominn d .. | .amomaxn d .. | .amoswp d .. | .amocas d .. => [(if d = 0 then 1 else 0, 1)]
  | .vatom f => [(if f.rm = 2 then 0 else 1, 1)]
  | .ldcwt d _ => if (s.rd d).toNat >>> 16 % 1024 = 0 then [] else [(0, 1)]
  | .cpy .. | .cpyy .. | .coll .. => [(2, 1)]
  | .gthrSp .. | .gthrOb .. => [(3, s.activeLanes.length)]
  | _ => []

/-- Open instances of the collective engines that a die takes part in. -/
def State.openColls (s : State) (die : Nat) : Nat :=
  (s.colls.filter (fun i => i.members.any (fun m => m.by_.ctx.die = die && !m.written))).length

/-- What a command asks of queues: 1 matrix, 2 Mordant, 3 stream, 4 gather, 5 collective, 6 postings. -/
def State.queueUse (s : State) (i : Instr) : List (Nat × Nat) :=
  match i with
  | .mloop .. | .mtern .. => [(1, 1)]
  | .qres .. | .qcvt .. | .qprune .. | .qrel .. => [(2, 1)]
  | .cpy .. | .ringset .. => [(3, 1)]
  | .cpyy .. => [(3, 1), (6, 1)]
  | .gthrSp .. | .gthrOb .. => [(4, s.activeLanes.length)]
  | .coll .. => [(5, 1)]
  | _ => []

/-- Entries in use of each of those queues, and how many there are. -/
def State.queueRoom (s : State) (q : Nat) : Nat × Nat :=
  let c := s.home
  let k := s.core c.die c.core
  match q with
  | 1 => (k.matq.length, 16)
  | 2 => (k.morq.length, 16)
  | 3 => (k.strq.length, 16)
  | 4 => ((s.die c.die).gq.length, 64)
  | 5 => (s.openColls c.die, 32)
  | _ => ((s.ctx c).cpyy, 8)

/-- The sum of the demands of one key. -/
def demand (l : List (Nat × Nat)) (k : Nat) : Nat := (l.filter (fun p => p.1 = k)).foldl (fun n p => n + p.2) 0

/-- Whether the bundle's operations find room in every queue and counter. -/
def State.hasRoom (s : State) (l : List Instr) : Bool :=
  let q := l.flatMap s.queueUse
  let c := l.flatMap s.counterUse
  (upto 1 6).all (fun k => demand q k = 0 || (s.queueRoom k).1 + demand q k ≤ (s.queueRoom k).2)
    && (List.range 4).all (fun n => demand c n = 0 || s.wcOf s.issue.part n + demand c n ≤ 255)

end Sys2Proof.Machine
end

