-- ==== Sys2Proof/Machine/Issue.lean ====
section
/-!
DEFINITION. Issuing a bundle: fetch, decode checks, holds, issue checks, the words and slots, and what closes a
bundle; and the choice of the context that issues (R44, R57, R79 to R83, R94, R101 to R106, R125, R134, R240,
R290, R331, R362 to R365).
-/
namespace Sys2Proof.Machine

/-! ### Fetch (R79, R364) -/

/-- A bundle as fetched: its address, header word, scalar words and literals. -/
structure Raw where
  addr : Word
  hw : BitVec 32
  words : List (BitVec 32)
  lits : List (BitVec 32)
  deriving DecidableEq, Repr

/-- What a fetch of a bundle gives. -/
inductive FetchedBundle where
  | raw (r : Raw)
  | fail (code : BitVec 8) (va : Nat)
  | wait
  deriving DecidableEq, Repr

/-- n words of code from an address up. -/
def State.fetchRun (s : State) (p : PartRef) (va : Nat) : Nat → Except (Option (BitVec 8 × Nat)) (List (BitVec 32)) × State
  | 0 => (.ok [], s)
  | n + 1 =>
    match s.fetchWord p va with
    | (.word w, s) =>
      match s.fetchRun p (va + 4) n with
      | (.ok l, s) => (.ok (w :: l), s)
      | e => e
    | (.fail c, s) => (.error (some (c, va)), s)
    | (.wait, s) => (.error none, s)

/-- The bundle at a part's PC; of an illegal header the header alone. -/
def State.fetchBundle (s : State) (p : PartRef) : FetchedBundle × State :=
  let pc := (s.thread p).pc
  match s.fetchWord p pc.toNat with
  | (.wait, s) => (.wait, s)
  | (.fail c, s) => (.fail c pc.toNat, s)
  | (.word w, s) =>
    let h := decodeHeader w
    if !h.ok then (.raw { addr := pc, hw := w, words := [], lits := [] }, s)
    else match s.fetchRun p (pc.toNat + 4) (h.ns + h.nl) with
      | (.ok l, s) => (.raw { addr := pc, hw := w, words := l.take h.ns, lits := l.drop h.ns }, s)
      | (.error (some (c, va)), s) => (.fail c va, s)
      | (.error none, s) => (.wait, s)

/-! ### Decode (R85, R97 to R100, R106, R209, R363) -/

/-- A scalar or command word as the issuing core decodes it, or its cause. -/
def wordFate (ochre : Bool) (w : BitVec 32) : Except (BitVec 8) Instr :=
  match candidate w with
  | .undefined => .error 0x03
  | .reserved =>
    .error (if (if ochre then (fld w 26 6).toNat = 0x3E else (fld w 26 6).toNat = 0x0B) then 0x03 else 0x04)
  | .cand i zero =>
    if (if ochre then !ochreRuns i else isLk i) then .error 0x03
    else if w &&& zero != 0 || !i.wf then .error 0x04
    else match ochre, i with
      | true, .waitc c _ _ => if 2 ≤ c.toNat then .error 0x04 else .ok i
      | _, _ => .ok i

/-- A bundle decoded: its header, its words as far as they decode, and its slots expanded. -/
structure Bundle where
  raw : Raw
  header : Header
  fates : List (Except (BitVec 8) Instr)
  slots : List Instr

/-- The entry of the context's CWT a header names, expanded (R85); a thread of an Ochre core has no CWT. -/
def State.expand (s : State) (p : PartRef) (h : Header) : List Instr :=
  match p with
  | .gang d c x _ =>
    if h.t then expandEntry (fld h.tile 9 7).toNat (ngetD (ngetD (s.core d c).cwt x []) (fld h.tile 0 9).toNat 0) else []
  | .ochre _ _ => []

/-- A fetched bundle decoded. -/
def State.decodeBundle (s : State) (p : PartRef) (r : Raw) : Bundle :=
  let h := decodeHeader r.hw
  { raw := r, header := h, fates := r.words.map (wordFate (match p with | .ochre _ _ => true | _ => false))
    slots := if h.ok then s.expand p h else [] }

/-- The words that decode. -/
def Bundle.instrs (b : Bundle) : List Instr := b.fates.filterMap (fun f => f.toOption)

/-- Address of the next bundle. -/
def Bundle.next (b : Bundle) : Word := b.raw.addr + BitVec.ofNat 64 (4 * b.header.len)

/-- Step 1 of R106. -/
def Bundle.headerCheck (b : Bundle) (onOchre : Bool) : Option Failed :=
  need (b.header.ok && !(onOchre && b.header.t)) 0x00 (b.raw.hw.setWidth 64)

/-- Step 2: literal references of the slots, then of the words. -/
def Bundle.literalCheck (b : Bundle) : Option Failed :=
  firstFail ((b.slots.map slotLiteral).filter (· != 0) ++ b.raw.words.flatMap literalRefs)
    (fun j => need (j ≤ b.header.nl) 0x01 (BitVec.ofNat 64 j))

/-- The references of the commands among a bundle's words, those with a reserved field too: step 3 comes before the
check of the words (R106). -/
def State.wordRefs (s : State) (w : BitVec 32) : List Ref :=
  match candidate w with
  | .cand i _ => s.commandRefs i
  | _ => []

/-- Step 3: the allocation, of the slots and then of the commands' records (R368); a thread of an Ochre core has no
allocation and runs no command. DEDUCED, log 21. -/
def State.allocationCheck (s : State) (b : Bundle) : Option Failed :=
  firstFail (b.slots.flatMap slotRefs ++ (if s.onOchre then [] else b.raw.words.flatMap s.wordRefs))
    (fun r => need (s.tileCtx.holds r) 0x02 (BitVec.ofNat 64 (r.1 * 256 + r.2)))

/-- Step 4: the words in order. -/
def Bundle.wordCheck (b : Bundle) : Option Failed :=
  firstFail (indexed b.fates) (fun e => match e.2 with
    | .error c => bad c (BitVec.ofNat 64 (e.1 + 1))
    | .ok _ => none)

/-- Step 5: one control transfer. -/
def Bundle.transferCheck (b : Bundle) : Option Failed :=
  need ((b.instrs.filter Instr.transfers).length ≤ 1) 0x05 0

/-- The decode checks of R106, in order. -/
def State.decodeCheck (s : State) (b : Bundle) : Option Failed :=
  andThen (b.headerCheck s.onOchre) (andThen b.literalCheck (andThen (s.allocationCheck b)
    (andThen b.wordCheck b.transferCheck)))

/-- The state at a word of the bundle, by its index. -/
def State.atWord (s : State) (k : Nat) : State := { s with issue := { s.issue with word := k } }

/-- The issue checks of words, each at its index (R362 step 2). -/
def State.wordsCheck (s : State) (l : List (Nat × Instr)) : Option Failed :=
  firstFail l (fun e => (s.atWord (e.1 + 1)).check e.2)

/-- The issue checks of the words and then of the slots (R362 steps 2 and 3). -/
def State.issueCheck (s : State) (b : Bundle) : Option Failed :=
  andThen (s.wordsCheck (indexed b.instrs)) (firstFail b.slots s.check)

/-! ### Holds (R103 to R105, R120, R125, R150, R189, R240, R255, R362) -/

/-- Whether what a lookahead window waits for is complete. -/
def State.laDone (s : State) (w : LaWait) : Bool :=
  match w.target with
  | .access id => (s.acc id).isNone
  | .command id => s.cmds.all (fun c => c.id != id)

/-- Whether a lookahead window holds the next bundle of a part. -/
def State.laHolds (s : State) (p : PartRef) : Bool :=
  (s.thread p).la.any (fun w => w.left = 0 && !s.laDone w)

/-- Whether a window read due by the next bundle has not arrived (R255, R304). -/
def State.windowHolds (s : State) (p : PartRef) : Bool :=
  let due := ((s.thread p).pend.filter (fun q => q.r ≤ 1)).map (·.order)
  s.clusters.any (fun k => (k.2.waiting ++ k.2.flying).any (fun t =>
    ((t.who, t.id) :: t.also).any (fun a => a.1 = p && due.contains a.2)))

/-- Whether an acquire of the part holds the bundle: nothing later of the part may be performed before it, and a
scratchpad or OSB slot is performed as it issues (R120, R269). DEDUCED, log 17. -/
def State.acquireHolds (s : State) (p : PartRef) (b : Bundle) : Bool := b.slots.any touchesStore && s.acquiring p

/-- Entries a bundle names that are busy for it (R105). -/
def State.busyEntries (s : State) (b : Bundle) : List Ref :=
  b.slots.flatMap (fun i => (s.entries i).filter (s.entryBusy s.home 0))
    ++ b.instrs.flatMap (fun i => (s.entries i).filter (s.entryBusy s.home (commandUnit i)))

/-- Paths the bundle uses. -/
def State.pathsUsed (s : State) (b : Bundle) : List Path := (b.instrs ++ b.slots).flatMap s.pathUse

/-- Whether a fence of the part holds the bundle. -/
def State.fencesHold (s : State) (p : PartRef) (b : Bundle) : Bool :=
  (s.thread p).fences.any (fun f => s.fenceHolds p f (s.pathsUsed b))

/-- The cycle at which the matrix commands on an accumulator are predicted to be complete (R240). -/
def State.predictedAt (s : State) (c : CtxRef) (acc : Nat) : Nat :=
  (s.core c.die c.core).matq.foldl (fun n m => if m.by_.ctx = c && m.accs.contains acc then max n m.predicted else n) 0

/-- A context whose part has begun to wait: it may have to be BLOCKED, and a request may then take it (R39, R294). -/
def State.settleWait (s : State) (c : CtxRef) : State := (s.settleBlock c).serveBlocked c

/-- A part the scoreboard holds on accumulators of matrix commands sleeps until their predicted completion (R240).
DEDUCED, log 27. -/
def State.sleep (s : State) (p : PartRef) (c : CtxRef) (l : List Ref) : State :=
  let accs := dedup ((l.filter (fun r => r.1 = 3 && s.cycle < s.predictedAt c r.2)).map (·.2))
  if accs.isEmpty then s
  else
    let t := s.thread p
    (s.setThread p { t with waits := t.waits ++ accs.map (fun a => .predict (s.predictedAt c a) a) }).settleWait c

/-! ### Reads before issue (R132, R133, R144, R145) -/

/-- The answer of a bundle's reads before it issues: all there, one not there yet, a SLOTWAIT at a word that finds no
slot, or one that fails. -/
inductive Before where
  | ready
  | wait
  | block (word : Nat) (w : Wait)
  | fail (code : BitVec 8) (kind : BitVec 3) (va : Nat)
  deriving DecidableEq, Repr

/-- The header at the end of a body that a loop of no trip skips. -/
def State.skipHeader (s : State) (target next : Word) : Before × State :=
  if target.toNat < next.toNat || s.issue.ends then (.ready, s)
  else match s.fetchWord s.issue.part target.toNat with
    | (.word _, s) => (.ready, s)
    | (.wait, s) => (.wait, s)
    | (.fail c, s) => (.fail c (fetchKind c) (if c = 0x49 then target.toNat / 64 * 64 else target.toNat), s)

/-- A read's answer: its bytes are kept for the word at work, and the question goes on. -/
def beforeOf (r : Peek × State) (f : List Byte → State → Before × State) : Before × State :=
  match r with
  | (.bytes l, s) => f l { s with issue := { s.issue with mem := nset s.issue.mem s.issue.word l } }
  | (.wait, s) => (.wait, s)
  | (.fail c va, s) => (.fail c 3 va, s)

/-- What the word at work reads before its bundle issues. A SLOTWAIT that finds no slot blocks the bundle. DEDUCED, log
25. DEDUCED, log 26. -/
def State.readBefore (s : State) (next : Word) (i : Instr) : Before × State :=
  match i with
  | .loop a t => if (s.rd a).toNat % 2 ^ 32 = 0 then s.skipHeader (s.target t) next else (.ready, s)
  | .loops a t =>
    if (s.rd a).toNat % 4 != 0 then (.ready, s)
    else beforeOf (s.rowPointers (s.rd a)) fun l s =>
      if ofBytes (l.take 4) = ofBytes (l.drop 4) then s.skipHeader (s.target t) next else (.ready, s)
  | .slotwait _ a sc side =>
    if (s.rd a).toNat % 64 != 0 then (.ready, s)
    else beforeOf (s.reading (s.rd a).toNat 64 (some (scopeOf sc))) fun l s =>
      let r := ringOf l
      if r.aligned && r.ok && (r.slot (side == 1)).isNone && !s.inHalf then
        (.block s.issue.word (.slotwait (s.rd a) (side == 1) (scopeOf sc)), s)
      else (.ready, s)
  | .slotsig a _ _ =>
    if (s.rd a).toNat % 64 != 0 then (.ready, s)
    else beforeOf (s.reading (s.rd a).toNat 64 none) fun _ s => (.ready, s)
  | _ => (.ready, s)

/-- The reads of words with their indices, the first that is not ready deciding. -/
def State.readsBefore (s : State) (next : Word) : List (Nat × Instr) → Before × State
  | [] => (.ready, s)
  | (k, i) :: r => match (s.atWord (k + 1)).readBefore next i with
    | (.ready, s) => s.readsBefore next r
    | b => b

/-! ### Running a bundle -/

/-- The phase of a word: plain words, stride bindings, divergent branches, SETAM, records that later bundles' commands
capture and words that wait, and last TRAP and RTE, with the slots after phase 0. DEDUCED, log 78. -/
def wordPhase : Instr → Nat
  | .lstr .. => 2
  | .bdk .. | .bdnk .. | .bdkLong .. | .bdnkLong .. => 3
  | .setam .. => 4
  | .mset .. | .cpyset .. | .waitc .. | .barwt .. | .yield .. | .lbrk .. => 5
  | .trap .. | .rte => 6
  | _ => 0

/-- Whether an END bundle discards a word (R365). -/
def endDrops (i : Instr) : Bool := i.transfers || (match i with | .setam .. => true | _ => false)

/-- A word in a phase: its meaning in its own phase; QRES enters its queue in word order and writes its record with the
other records (R101, R189, R200). -/
def State.runIn (s : State) (n : Nat) (i : Instr) : State :=
  match i with
  | .qres a b z o => if n = 0 then s.queueQres a b z o else if n = 5 then s.putQres a b o else s
  | _ => if wordPhase i = n then s.runWord i else s

/-- The words of a phase run in word order. -/
def State.runPhase (s : State) (b : Bundle) (n : Nat) : State :=
  (indexed b.instrs).foldl (fun s e =>
    if b.header.ends && endDrops e.2 then s else (s.atWord (e.1 + 1)).runIn n e.2) s

/-- The slots of the bundle: a scratchpad or OSB slot behind an acquire of the bundle's own words waits for it (R120,
R263). -/
def State.runSlots (s : State) (l : List Instr) : State :=
  let wait (i : Instr) : Bool := touchesStore i && s.acquiring s.issue.part
  let s := (l.filter (fun i => !wait i)).foldl State.runWord s
  let late := l.filter wait
  if late.isEmpty then s else s.setThr { s.thr with late := some (s.issue, late) }

/-- All words and slots but TRAP and RTE (R101, R102). -/
def State.runBundle (s : State) (b : Bundle) : State :=
  let s := s.runPhase b 0
  let s := s.runSlots b.slots
  (upto 2 4).foldl (fun s n => s.runPhase b n) s

/-- The scalar register an access returns to. -/
def AccessOp.scalarReg : AccessOp → Option Nat
  | .loadReg rd _ _ => some rd
  | .amo _ _ rd _ => some rd
  | .launch _ rd => some rd
  | _ => none

/-- Accesses of the bundle whose register a later word of it writes too leave the register alone (R102). -/
def State.laterWrites (s : State) (p : PartRef) (b : Bundle) : State :=
  let later (k rd : Nat) : Bool := (b.instrs.drop k).any fun i => (scalarDest i).map (·.toNat) == some rd
  { s with accs := s.accs.map fun a =>
      if s.issue.first ≤ a.id && a.who = p && a.op.scalarReg.any (later a.word) then { a with noReg := true } else a }

/-- What registers, branches and tiles of a part depend on after a bundle, and what its accesses do, from what they did
before it (R269). DEDUCED, log 114. -/
def State.depend (s : State) (p : PartRef) (b : Bundle) (old : NMap (List Nat)) : State :=
  if old.isEmpty then s
  else
    let live (l : List Nat) : List Nat := dedup (l.filter (fun id => (s.acc id).any Access.isOpen))
    let reads (i : Instr) : List Nat := (depSources i).flatMap (fun k => ngetD old k [])
    let put (m : NMap (List Nat)) (k : Nat) (l : List Nat) : NMap (List Nat) :=
      if (live l).isEmpty then nerase m k else nset m k (live l)
    let kept := old.foldl (fun m e => put m e.1 e.2) []
    let dep := b.instrs.foldl (fun m i =>
      let m := (scalarDest i).elim m (fun r => put m r.toNat (reads i))
      if steers i then put m 32 (ngetD old 32 [] ++ reads i) else m) kept
    let after (a : Access) : List Nat := live (ngetD old 32 []
      ++ (if a.path = .tile then ngetD old 33 [] else (b.instrs[a.word - 1]?).elim [] reads))
    let s : State := { s with accs := s.accs.map fun a =>
      if s.issue.first ≤ a.id && a.who = p then { a with after := after a } else a }
    s.setThread p { s.thread p with dep := dep }

/-- The issue record of a bundle of a part: what its words read (R102), with what was read for them before. -/
def State.openWith (s : State) (p : PartRef) (b : Bundle) (checked : Bool) (mem : NMap (List Byte) := []) : State :=
  let t := s.thread p
  let (ftz, uchk) := match p.ctx? with
    | some c => ((s.ctx c).ftz, (s.ctx c).uchk)
    | none => (false, false)
  { s with issue := { part := p, addr := b.raw.addr, src := t.regs, csr := s.csrAll p, am := t.am, lits := b.raw.lits,
                      ends := b.header.ends, taken := false, word := 0, words := b.instrs, ftz := ftz, uchk := uchk,
                      checked := checked, mem := mem, first := s.nextId } }

/-- The bundle's PC advance and its place in the lookahead and fence bookkeeping (R103, R125). -/
def State.advance (s : State) (p : PartRef) (b : Bundle) : State :=
  let t := s.thread p
  let keep (f : FenceMark) : Bool := s.fenceHolds p f [.scalar, .tile, .copy, .matrix, .gather, .coll, .quant]
    || (match f.paths with | some (x, y) => s.fenceHolds p { f with paths := some (x, y) } [y] | none => false)
  s.setThread p { t with
    pc := b.next, due := false
    la := (t.la.filter (fun w => !s.laDone w)).map (fun w => { w with left := w.left - 1 })
    fences := t.fences.filter keep
    seen := t.seen.filter (fun id => match s.acc id with | some a => a.isOpen | none => false) }

/-- A part has issued a bundle, which its sequencer's watchdog takes for progress (R402). -/
def State.partMoved (s : State) (p : PartRef) : State :=
  match p with
  | .gang d c _ sp => s.setCore d c ((s.core d c).moved (if sp then 1 else 0) s.time)
  | .ochre d i => s.setOchre d i { s.ochre d i with movedAt := s.time }

/-- The count of a part, or in a handler that of its handlers, and after a split that of the new half, advanced by the
bundle (R48, R94, R147). -/
def State.countBundle (s : State) (p : PartRef) (wasWhole : Bool) : State :=
  let t := s.thread p
  let s := s.setThread p (if t.handler.isSome then { t with hissued := t.hissued + 1 } else { t with issued := t.issued + 1 })
  let s := s.partMoved p
  match p with
  | .gang d c x false =>
    let k := s.ctx ⟨d, c, x⟩
    if wasWhole then s.setCtx ⟨d, c, x⟩ { k with spare := k.spare.map (fun t => { t with issued := k.main.issued }) } else s
  | _ => s

/-- Whether a part is in a YIELD of this bundle. -/
def Thread.yielding (t : Thread) : Bool := (yieldOf t.waits).isSome

/-- What a bundle whose TRAP or RTE comes after a wait of its own still owes (R151, R346, R352). -/
def State.owed (s : State) (b : Bundle) : Option Last :=
  b.instrs.findSome? fun i => match i with
    | .trap n => some (.trap (s.cause (0xB8 + n.setWidth 8) 1 0 0) b.next)
    | .rte => some (.rte b.raw.addr)
    | _ => none

/-- What closes a bundle that was not suppressed: its count, the end of its iteration, a misaligned target, TRAP and
RTE, the exit of its lanes and empty masks (R44, R94, R128, R134, R151, R365). DEDUCED, log 10. -/
def State.closeBundle (s : State) (p : PartRef) (b : Bundle) (wasWhole : Bool) : State :=
  let s := s.countBundle p wasWhole
  let t := s.thread p
  let last := b.instrs.any (fun i => wordPhase i = 6) && !b.header.ends
  let owed := if b.header.ends || t.through then none else s.owed b
  let s := if s.issue.taken || t.yielding || last then s
    else s.setThread p (Thread.endIteration b.raw.addr t.floor 6 t)
  let s := if s.issue.taken then s.checkTarget p b.raw.addr else s
  let s := match p with
    | .gang d c x false =>
      if wasWhole && (s.ctx ⟨d, c, x⟩).spare.isSome then s.checkTarget (.gang d c x true) b.raw.addr else s
    | _ => s
  let s := match owed with
    | some l => s.setThread p { s.thread p with last := some l }
    | none => s.runPhase b 6
  match p with
  | .ochre d i => if b.header.ends then s.setOchre d i { s.ochre d i with done := true } else s
  | .gang d c x _ =>
    if (s.ctx ⟨d, c, x⟩).st == .draining then s
    else
      let s := if b.header.ends then s.endBundle p s.issue.am else s
      s.settleEmpty p b.next

/-- Whether a bundle's SAFE bit may take effect: no slot of it has an exposed latency (R81, R92). -/
def Bundle.safe (b : Bundle) : Bool :=
  b.header.safe && b.slots.all fun i => match i with
    | .ldg _ | .stg _ | .gath _ | .scat _ | .scadd _ | .vatom _ => true
    | _ => false

/-- The SAFE bit of a bundle, what a request then meets, and the context's state (R39, R81, R293, R294). -/
def State.afterBundle (s : State) (p : PartRef) (safe : Bool) : State :=
  match p with
  | .ochre _ _ => s
  | .gang d c x sp =>
    let r : CtxRef := ⟨d, c, x⟩
    if (s.ctx r).st == .draining || (sp && (s.ctx r).spare.isNone) then s
    else
      let t := s.thread p
      let ok := safe && t.quiet
      let s := s.setThread p { t with atSafe := ok }
      let s := if ok then s.setCtx r { s.ctx r with safeFrom := s.cycle } else s
      let s := if sp then s else s.setCtx r { s.ctx r with st := .issuing }
      (s.serveSafe r).settleWait r

/-- Whether FO and LO suppress a bundle of a part (R80, R135, R350). -/
def Thread.suppresses (t : Thread) (h : Header) : Bool :=
  (h.fo || h.lo) && t.handler.isNone && (match t.loops with
    | v :: _ => !((h.fo && v.iter = 0) || (h.lo && v.rem = 1))
    | [] => false)

/-- A bundle with every hold cleared as its checks find it: results due have landed and the part stands behind it. -/
def State.readied (s : State) (p : PartRef) (b : Bundle) : State :=
  ((s.tick p).openWith p b false s.issue.mem).advance p b

/-- A bundle with every hold cleared and its reads made: its checks, then its issue (R94, R106, R346, R362). -/
def State.finishIssue (s : State) (p : PartRef) (b : Bundle) : State :=
  let wasWhole := match p.ctx? with
    | some c => (s.ctx c).spare.isNone
    | none => true
  let ready := s.readied p b
  match andThen (s.decodeCheck b) (ready.issueCheck b) with
  | some f => s.trap0 f.code f.val f.eng
  | none =>
    let s := (((ready.openWith p b true s.issue.mem).runBundle b).laterWrites p b).depend p b (s.thread p).dep
    (s.closeBundle p b wasWhole).afterBundle p b.safe

/-- A suppressed bundle: it takes the decode checks alone, executes nothing and counts (R80, R134). -/
def State.finishSuppressed (s : State) (p : PartRef) (b : Bundle) : State :=
  match s.decodeCheck b with
  | some f => s.trap0 f.code f.val f.eng
  | none =>
    let s := (((s.tick p).openWith p b true).advance p b).countBundle p false
    let t := s.thread p
    (s.setThread p (Thread.endIteration b.raw.addr t.floor 6 t)).afterBundle p false

/-- How the next bundle of a part stands: held, failing to be read, suppressed by FO or LO, or with every hold cleared. -/
inductive Standing where
  | held
  | fails (q : Cause)
  | suppressed (b : Bundle)
  | clear (b : Bundle)

/-- How the bundle at a part's PC stands, and what looking at it leaves behind: misses, a sleep, a SLOTWAIT that blocks
unless a check of an earlier word fails. -/
def State.standing (s : State) (p : PartRef) : Standing × State :=
  match s.fetchBundle p with
  | (.wait, s) => (.held, s)
  | (.fail code va, s) =>
    (.fails ((s.thread p).cause s code (fetchKind code) (BitVec.ofNat 64 (if code = 0x49 then va / 64 * 64 else va))), s)
  | (.raw r, s) =>
    let b := s.decodeBundle p r
    let s := (s.openWith p b false).enterFenced p
    let t := s.thread p
    if s.laHolds p || t.late.isSome || !t.cwtLoad.isEmpty || s.windowHolds p then (.held, s)
    else if t.suppresses b.header then (.suppressed b, s)
    else
      let busy := s.busyEntries b
      if !busy.isEmpty then (.held, s.sleep p s.home busy)
      else if s.fencesHold p b || s.acquireHolds p b || !s.hasRoom (b.instrs ++ b.slots) then (.held, s)
      else if (s.decodeCheck b).isSome then (.clear b, s)
      else match s.readsBefore b.next (indexed b.instrs) with
        | (.wait, s) => (.held, s)
        | (.ready, s) => (.clear b, s)
        | (.block k w, s) =>
          if ((s.readied p b).wordsCheck ((indexed b.instrs).take (k - 1))).isSome then (.clear b, s)
          else
            let t := s.thread p
            (.held, (s.setThread p { t with waits := t.waits ++ [w], due := false }).settleWait s.home)
        | (.fail code kind va, s) => (.fails ((s.thread p).cause s code kind (BitVec.ofNat 64 va)), s)

/-- The bundle at a part's PC: it waits, traps or issues. -/
def State.issueBundle (s : State) (p : PartRef) : State :=
  match s.standing p with
  | (.held, s) => s
  | (.fails q, s) => s.trapAt p q q.pc
  | (.suppressed b, s) => s.finishSuppressed p b
  | (.clear b, s) => s.finishIssue p b

/-! ### Who may issue (R38, R39, R48, R52, R290, R331, R356) -/

/-- Whether a part stands where it could issue: its die runs, its context is READY and its slot's last switch effective
(R40), it waits for nothing and no cause is on its way to it. -/
def State.canIssue (s : State) (p : PartRef) : Bool :=
  p.ok && s.stage = 5 && (s.die p.die).status == .running && !(s.die p.die).inReset
    && (match p with
      | .gang d c x sp =>
        let k := s.ctx ⟨d, c, x⟩
        let t := s.thread p
        (k.st == .ready || k.st == .issuing) && (!sp || k.spare.isSome) && (!t.frozen || s.cycle < t.frozenFrom) && !t.held
          && ngetD (s.core d c).switchedAt (x / 2) 0 ≤ s.cycle && k.save == .none && k.inbox.isEmpty && !s.pageWait ⟨d, c, x⟩ && !s.recordBehind ⟨d, c, x⟩
      | .ochre d i =>
        let o := s.ochre d i
        o.req.isSome && !o.done && o.thread.waits.isEmpty)

/-- Whether a part takes a pending cause in place of its next bundle. -/
def Thread.owes (t : Thread) : Bool := !t.causes.isEmpty && t.takes && !t.due

/-- The slots that waited for an acquire of their own bundle run once it is performed, and the bundle is through (R120,
R346). -/
def State.runLate (s : State) (p : PartRef) : State :=
  let t := s.thread p
  match t.late with
  | some (i, l) =>
    if s.acquiring p then s
    else
      let s := { s.setThread p { t with late := none } with issue := { i with late := true } }
      (l.foldl State.runWord s).leave p
  | none => s

/-- What the latest bundle of a part still has to do done, the joins it has reached settled, and its context's state
after them; a half that arrives while the other stands at a SAFE bundle meets a request at its safe point (R294). -/
def State.settled (s : State) (p : PartRef) : State :=
  let t := (s.runLate p).settleJoins p 80
  match p.ctx? with
  | some c => (if !(s.thread p).arrived && (t.thread p).arrived && (t.ctx c).spare.isSome then t.serveSafe c else t).settleWait c
  | none => t

/-- A part's next bundle: a pending cause is taken in its place, a join it has reached is settled first. -/
def State.issuePart (s : State) (p : PartRef) : State :=
  if !s.canIssue p then s
  else if (s.thread p).owes then s.takePending p
  else
    let s := s.settled p
    if s.canIssue p then s.issueBundle p else s

/-- A part whose bundle does not issue in this cycle: its pending cause, joins, waits and reads go on all the same. -/
def State.lookAt (s : State) (p : PartRef) : State :=
  if !s.canIssue p then s
  else if (s.thread p).owes then s.takePending p
  else
    let s := s.settled p
    if !s.canIssue p then s
    else match s.standing p with
      | (.held, t) => t
      | _ => s

/-- Whether a part's next bundle has every hold cleared. A part that only waits for its code or a read is no candidate. -/
def State.candidate (s : State) (p : PartRef) : Bool :=
  s.canIssue p && !(s.thread p).owes &&
  (let a := s.settled p
   a.canIssue p && (match a.standing p with | (.held, _) => false | _ => true))

/-- Whether a die's gate lets its sequencers issue in this cycle: at most G of every 256, the first ones (R331).
DESIGN CHOICE, log 29. -/
def State.gateOpen (s : State) (d : Nat) : Bool := (s.die d).gate = 255 || s.cycle % 256 < (s.die d).gate

/-- Whether a sequencer of a core, the primary 0 or the spare 1, has issued in this cycle (R38). -/
def State.used (s : State) (d c q : Nat) : Bool := nget (s.core d c).lastIssue q == some s.cycle

/-- A sequencer's issue of this cycle taken for a context. -/
def State.use (s : State) (d c q x : Nat) : State :=
  let k := s.core d c
  s.setCore d c { k with lastIssue := nset k.lastIssue q s.cycle, lastWho := nset k.lastWho q x }

/-- The better of two candidates by priority, stamp and context number (R290). -/
def State.better (s : State) (d c : Nat) (a b : Nat) : Nat :=
  let x := s.ctx ⟨d, c, a⟩
  let y := s.ctx ⟨d, c, b⟩
  if x.prog.prio < y.prog.prio || (x.prog.prio = y.prog.prio && y.stamp < x.stamp) then b else a

/-- The candidate the primary sequencer picks, and those it drops for their streak (R290). -/
def State.pick (s : State) (d c : Nat) (l : List Nat) : Option Nat × List Nat :=
  let starved := l.filter (fun x => 16 ≤ (s.ctx ⟨d, c, x⟩).starve)
  match starved with
  | a :: r =>
    (some (r.foldl (fun m x => if (s.ctx ⟨d, c, m⟩).starve < (s.ctx ⟨d, c, x⟩).starve then x else m) a), [])
  | [] =>
    let drop := if 2 ≤ l.length then l.filter (fun x => 8 ≤ (s.ctx ⟨d, c, x⟩).streak) else []
    match l.filter (fun x => !drop.contains x) with
    | [] => (none, drop)
    | a :: r => (some (r.foldl (s.better d c) a), drop)

/-- What a context's counters become when another than the issuing one, or itself, issues (R290): a streak is a run of
bundles in a row, so it ends for every other context, and a candidate that is not picked starves. DEDUCED, log 118. -/
def Context.compete (k : Context) (wins candidate dropped : Bool) (now : Nat) : Context :=
  if wins then { k with streak := k.streak + 1, starve := 0 }
  else { k with
    streak := 0, starve := if candidate then k.starve + 1 else k.starve, stamp := if dropped then now else k.stamp }

/-- The contest of a core's contexts for the primary sequencer in a cycle in which neither sequencer has issued (R57,
R290): last cycle's issuer is READY again, the held parts are looked at, and the picked context's number comes with the
state in which its bundle issues. -/
def State.contest (s : State) (d c : Nat) : Option Nat × State :=
  if 24 ≤ d || 48 ≤ c || s.used d c 0 || s.used d c 1 || !s.gateOpen d then (none, s)
  else
    let all := List.range 8
    let part (x : Nat) : PartRef := .gang d c x false
    let s := all.foldl (fun s x =>
      let k := s.ctx ⟨d, c, x⟩
      if k.st == .issuing then s.setCtx ⟨d, c, x⟩ { k with st := .ready } else s) s
    let cands := all.filter (fun x => s.candidate (part x))
    let s := (all.filter (fun x => !cands.contains x && s.canIssue (part x))).foldl (fun s x => s.lookAt (part x)) s
    match s.pick d c cands with
    | (none, _) => (none, s)
    | (some w, drop) =>
      (some w, (all.foldl (fun s x =>
        let k := s.ctx ⟨d, c, x⟩
        if x = w || cands.contains x || k.streak != 0 then
          s.setCtx ⟨d, c, x⟩ (k.compete (x == w) (cands.contains x) (drop.contains x) s.cycle)
        else s) s).use d c 0 w)

/-- The state in which a part's sequencer issues its bundle in this cycle, if it does (R38, R290, R331): the primary's
where its context is picked, the taken half's where the spare sequencer is its core's and idle. -/
def State.grant (s : State) (p : PartRef) : Option State :=
  match p with
  | .ochre _ _ => some s
  | .gang d c x false => match s.contest d c with
    | (some w, t) => if w = x then some t else none
    | (none, _) => none
  | .gang d c x true =>
    if !s.used d c 1 && s.gateOpen d && (s.core d c).spareOwner = some x && s.candidate p then some (s.use d c 1 x)
    else none

/-- BUNDLE_ISSUE (R94): a part issues in a cycle that its sequencer gives it. DESIGN CHOICE, log 31. -/
def execBundleIssue (p : PartRef) (s : State) : Answer :=
  .next (match s.grant p with
    | some t => t.issuePart p
    | none => s)

/-- ISSUE_SELECT (R57, R290): the chosen context's next bundle issues, then that of the taken half that holds the spare
sequencer as the cycle begins (R101). -/
def execIssueSelect (die core : Nat) (s : State) : Answer :=
  let owner := (s.core die core).spareOwner
  let s := match s.contest die core with
    | (some w, t) => t.issuePart (.gang die core w false)
    | (none, t) => t
  .next (match owner with
    | some x =>
      let p : PartRef := .gang die core x true
      (match s.grant p with
        | some t => t.issuePart p
        | none => s.lookAt p)
    | none => s)

/-! ### A request at its bound (R294, R300) -/

/-- Whether the bundle that a part issues in this cycle settles a request first: it traps, ends the program, or its SAFE
takes effect while the other half stands safe (R294, R300). -/
def State.settlesFirst (s : State) (p : PartRef) (other : Bool) : Bool :=
  match s.grant p with
  | none => false
  | some t =>
    match (t.settled p).standing p with
    | (.held, _) => false
    | (.fails _, _) => true
    | (.suppressed _, _) => false
    | (.clear b, u) =>
      let r := u.readied p b
      b.header.ends || b.instrs.any (fun i => match i with | .trap _ => true | _ => false)
        || (andThen (u.decodeCheck b) (r.issueCheck b)).isSome || (b.safe && (r.thread p).quiet && other)

/-- Whether a bundle of a context has issued in this cycle. -/
def State.issuedNow (s : State) (c : CtxRef) : Bool :=
  [0, 1].any fun q => s.used c.die c.core q && nget (s.core c.die c.core).lastWho q = some c.ctx

/-- Whether a trap or a bundle of this cycle comes before a hard save of a context: no bundle of it issues in the cycle of
its save (R415), and a cause that may reach it now is entered first. DEDUCED, log 100. -/
def State.hardWaits (s : State) (c : CtxRef) : Bool :=
  s.issuedNow c ||
  let x := s.ctx c
  let p : PartRef := .gang c.die c.core c.ctx false
  let q : PartRef := .gang c.die c.core c.ctx true
  (match x.inbox with
    | e :: _ => (s.thread (if e.1 then q else p)).takes
    | [] => false)
  || x.main.owes && !x.main.held || x.spare.any (fun t => t.owes && !t.held)
  || s.settlesFirst p (x.spare.all (fun t => t.atSafe || t.arrived))
  || (x.spare.isSome && s.settlesFirst q (x.main.atSafe || x.main.arrived))

/-- A pending request meets its bound: served hard (R294). -/
def State.serveBound (s : State) (c : CtxRef) : State :=
  if (s.ctx c).want.isSome && (s.ctx c).prebound.toNat ≤ s.safeCount c && !s.hardWaits c then s.beginSave c true else s

/-- A request made now, served at once where it can be. -/
def State.serveNow (s : State) (c : CtxRef) : State := (s.serveBlocked c).serveBound c

/-- HARD_PREEMPT_BOUND (R294). -/
def execHardPreemptBound (die core ctx : Nat) (s : State) : Answer :=
  let c : CtxRef := ⟨die, core, ctx⟩
  if c.ok then .next (s.serveBound c) else .next s

end Sys2Proof.Machine
end

