-- ==== Sys2Proof/Machine/Queues.lean ====
section
/-!
DEFINITION. The registers of the launch queues, the fault queue and image retirement, and the distributor taking a
launch record (R276 to R279, R288, R358).
-/
namespace Sys2Proof.Machine

/-- A launch queue of a partition. -/
def Partition.queue (k : Partition) (q : Nat) : LaunchQueue := ngetD k.lq q .zero

/-- Whether a queue exists (R278). -/
def queueOk (part q : Nat) : Bool := part < 4 && q < 64

/-- A launch queue replaced. -/
def State.setQueue (s : State) (part q : Nat) (x : LaunchQueue) : State :=
  s.setPart part { s.part part with lq := nset (s.part part).lq q x }

/-- LQCFG_WRITE (R278): a reserved size is ignored, and so is a change of size while EN is 1; EN rising zeroes WP and
RP. DEDUCED, log 59. -/
def execLqcfgWrite (part q : Nat) (v : Word) (s : State) : Answer :=
  let x := (s.part part).queue q
  let n : BitVec 5 := v.extractLsb' 0 5
  if !queueOk part q || !s.bar0Open part false || 16 < n.toNat || (x.en && n != x.log2) then .next s
  else
    let en := bitOf v 5
    let x := if en && !x.en then { x with wp := 0, rp := 0 } else x
    .next (s.setQueue part q { x with en := en, log2 := n })

/-- LQBASE_WRITE (R278). -/
def execLqbaseWrite (part q : Nat) (v : Word) (s : State) : Answer :=
  let x := (s.part part).queue q
  if !queueOk part q || !s.bar0Open part false || x.en then .next s else .next (s.setQueue part q { x with base := v.extractLsb' 6 51 })

/-- LQWP_WRITE (R278): a value that overfills the queue is refused and sets OVF. -/
def execLqwpWrite (part q : Nat) (v : Word) (s : State) : Answer :=
  let x := (s.part part).queue q
  let wp : BitVec 32 := v.extractLsb' 0 32
  if !queueOk part q || !s.bar0Open part false then .next s
  else if 2 ^ x.log2.toNat < (wp - x.rp).toNat then .next (s.setQueue part q { x with ovf := true })
  else .next (s.setQueue part q { x with wp := wp })

/-- FQCFG_WRITE (R358). -/
def execFqcfgWrite (part : Nat) (v : Word) (s : State) : Answer :=
  let k := s.part part
  let n : BitVec 5 := v.extractLsb' 0 5
  if !s.bar0Open part false || n.toNat < 4 || 16 < n.toNat || (k.fqEn && n != k.fqLog2) then .next s
  else
    let en := bitOf v 5
    let k := if en && !k.fqEn then { k with fqWp := 0, fqRp := 0 } else k
    .next (s.setPart part { k with fqEn := en, fqLog2 := n })

/-- FQRP_WRITE (R358): a value that makes WP − RP exceed the queue is ignored. -/
def execFqrpWrite (part : Nat) (v : Word) (s : State) : Answer :=
  let k := s.part part
  let rp : BitVec 32 := v.extractLsb' 0 32
  if !s.bar0Open part false || 2 ^ k.fqLog2.toNat < (k.fqWp - rp).toNat then .next s else .next (s.setPart part { k with fqRp := rp })

/-! ### Image retirement (R277) -/

/-- IMGINV (R277): GO while DONE is 0 has no effect; else the number is refused from now on. DEDUCED, log 60. -/
def execImginv (part : Nat) (v : Word) (s : State) : Answer :=
  let k := s.part part
  let n : BitVec 16 := v.extractLsb' 0 16
  if !s.bar0Open part false || (bitOf v 63 && !k.imgDone) then .next s
  else if bitOf v 63 then .next (s.setPart part { k with imgNum := n, imgDone := false, imgDead := [n.toNat] })
  else .next (s.setPart part { k with imgNum := n })

/-- The cores of a partition. -/
def State.coresOf (s : State) (part : Nat) : List (Nat × Nat) :=
  (bitsOf (s.part part).dies).flatMap (fun d => (List.range 48).map (fun c => (d, c)))

/-- The contexts of a partition. -/
def State.ctxsOf (s : State) (part : Nat) : List CtxRef := (bitsOf (s.part part).dies).flatMap dieContexts

/-- A core without the instruction-cache lines and CWT tags of an image number. -/
def Core.dropImage (k : Core) (n : Nat) : Core :=
  { k with icache := k.icache.filter (fun l => l.image != n), cwtTag := k.cwtTag.filter (fun t => t.2 != n) }

/-- IMGINV_DONE (R277): no context holds a program of the number and no accepted launch names it; the lines and tags of
the number are dropped. -/
def execImginvDone (part : Nat) (s : State) : Answer :=
  let k := s.part part
  match k.imgDead with
  | [] => .next s
  | n :: _ =>
    if k.launches.any (fun l => l.lrec.image = n)
        || (s.ctxsOf part).any (fun c => (s.ctx c).st != .empty && (s.ctx c).lrec.image = n) then .next s
    else
      let s := (s.coresOf part).foldl (fun s p => s.setCore p.1 p.2 ((s.core p.1 p.2).dropImage n)) s
      .next ((s.setPart part { s.part part with imgDead := [], imgDone := true }).dropImages part (· == n))

/-! ### The distributor takes a record (R276, R279) -/

/-- The queue goes past the record it has read. -/
def State.passRecord (s : State) (part q : Nat) : State :=
  let x := (s.part part).queue q
  s.setQueue part q { x with rp := x.rp + 1 }

/-- A record that was read and fails a check: 0xA0, and the failure value to COMPL where COMPL is aligned (R276, R288). -/
def State.failLaunch (s : State) (part q : Nat) (at_ : Word) (r : LaunchRecord) (check : Nat) : State :=
  let s := s.refuseLaunch part 7 at_ check
  if r.compl.toNat % 8 = 0 then (s.owe part (s.firstDie part) 0 r.compl failValue (some q)).settleCompl part else s

/-- LAUNCH_QUEUE_TAKE (R276, R279): the next record is read, checked and accepted, or refused; a record that cannot be
read fails check 9 and stores nothing. -/
def execLaunchQueueTake (part q : Nat) (s : State) : Answer :=
  let x := (s.part part).queue q
  if !queueOk part q || !(s.part part).formed || (s.part part).resetting || !x.en || x.rp = x.wp then .next s
  else
    let die := s.firstDie part
    let va := x.base.toNat * 64 + 64 * (x.rp.toNat % 2 ^ x.log2.toNat)
    let at_ : Word := BitVec.ofNat 64 va
    match s.fetchFor die part va 64 (.queue part q) with
    | (.wait, s) => .next s
    | (.fail _, s) => .next ((s.passRecord part q).refuseLaunch part 7 at_ 9)
    | (.bytes l, s) =>
      let r := recordOf l
      let (g, s) := if r.image < (s.part part).imgCnt.toNat then s.imageFor die part r.image (.queue part q)
        else (.fail 0x41, s)
      match g with
      | .wait => .next s
      | g =>
        let e := match g with
          | .bytes m => some (imageWords m)
          | _ => none
        let s := s.passRecord part q
        match s.launchCheck part l r e with
        | some n => .next (s.failLaunch part q at_ r n)
        | none => .next (s.accept part r at_ q (q / 16) none (e.getD []))

end Sys2Proof.Machine
end

