-- ==== Sys2Proof/Machine/Place.lean ====
section
/-!
DEFINITION. The front end and the distributors: which group goes next, where it fits, its start, its retirement with
the refill, and the slot's switch after its quantum (R37, R39, R40, R53, R55, R56, R282 to R288, R303).
-/
namespace Sys2Proof.Machine

/-! ### Resources of a core (R32, R284) -/

/-- The lowest address at which a run of bytes is free among runs in use: base and size of each. -/
def freeRun (used : List (Nat × Nat)) (cap size : Nat) : Option Nat :=
  if size = 0 then some 0
  else least ((0 :: used.map (fun u => u.1 + u.2)).filter fun a =>
    a + size ≤ cap && used.all (fun u => u.2 = 0 || u.1 + u.2 ≤ a || a + size ≤ u.1))

/-- The programs of a core by context number. -/
def State.live (s : State) (d c : Nat) : List (Nat × Context) :=
  ((List.range 8).map (fun x => (x, s.ctx ⟨d, c, x⟩))).filter (fun e => e.2.st != .empty)

/-- A place for one program: context, first scratchpad and OSB byte. -/
structure Spot where
  at_ : CtxRef
  spad : Nat
  osb : Nat
  deriving DecidableEq, Repr

/-- n OSB runs of a size, each at the lowest address left. -/
def osbRuns (size : Nat) : Nat → List (Nat × Nat) → Option (List Nat)
  | 0, _ => some []
  | n + 1, used => match freeRun used 65536 size with
    | none => none
    | some a => (osbRuns size n ((a, size) :: used)).map (a :: ·)

/-- EMPTY contexts of a core as programs of an image take them: first those whose CWT tag holds the image (R285). -/
def State.emptyContexts (s : State) (d c image : Nat) : List Nat :=
  let free := (List.range 8).filter (fun x => (s.ctx ⟨d, c, x⟩).st == .empty)
  let tag (x : Nat) : Bool := nget (s.core d c).cwtTag x = some image
  free.filter tag ++ free.filter (fun x => !tag x)

/-- Places on a core for the members of a group with given ranks, in one scratchpad run of k allocations; splits of them
need the spare sequencer (R284, R285, R299). -/
def State.coreSpots (s : State) (d c : Nat) (r : LaunchRecord) (k : Nat) (ranks : List Nat) (splits : Nat) :
    Option (List Spot) :=
  let l := (s.live d c).map (·.2)
  let n := ranks.length
  let sum (f : Context → Nat) : Nat := l.foldl (fun t x => t + f x) 0
  let a := roundUp r.spad 16384
  let o := roundUp r.osbB 4096
  if 64 < sum Context.regsA + n * roundUp r.regA 8 || 64 < sum Context.regsB + n * roundUp r.regB 8
      || 8 < sum (·.lrec.acc) + n * r.acc || 1 < splits || (splits = 1 && (s.core d c).spareOwner.isSome)
      || (s.emptyContexts d c r.image).length < n then none
  else
    match freeRun (l.map (fun x => (x.spadBase, x.spadSize))) 262144 (k * a),
        osbRuns o n (l.map (fun x => (x.osbBase, x.osbSize))) with
    | some base, some osbs =>
      some ((indexed ranks).map fun e =>
        { at_ := ⟨d, c, at' (s.emptyContexts d c r.image) e.1 0⟩, spad := base + e.2 * a, osb := at' osbs e.1 0 })
    | _, _ => none

/-- Members of a group to be placed, each with whether it is split. -/
abbrev Members := List (Nat × Bool)

/-- Places for a group on the core, or the cluster, of a number (R284). -/
def State.unitSpots (s : State) (d : Nat) (r : LaunchRecord) (m : Members) (u : Nat) : Option (List (Nat × Spot)) :=
  let split (l : Members) : Nat := (l.filter (·.2)).length
  if r.gsize ≤ 1 then
    if bitOf r.coreMask u then (s.coreSpots d u r 1 [0] (split m)).map (fun l => l.map (fun p => (0, p))) else none
  else
    ((List.range 4).filter (· < r.gsize)).foldl (fun acc pos =>
      let here := m.filter (fun e => e.1 % 4 = pos)
      let core := clusterCore u pos
      match acc with
      | none => none
      | some l =>
        if bitOf r.coreMask core then
          (s.coreSpots d core r (atPosition r.gsize pos) (here.map (fun e => e.1 / 4)) (split here)).map
            (fun ps => l ++ (here.map (·.1)).zip ps)
        else none) (some [])

/-- Places for a group on a die: the first core, or cluster, after the die's pointer that fits, with its number (R284). -/
def State.dieSpots (s : State) (d : Nat) (r : LaunchRecord) (m : Members) : Option (Nat × List (Nat × Spot)) :=
  let (last, n) := if r.gsize ≤ 1 then ((s.die d).lastCore, 48) else ((s.die d).lastCluster, 12)
  ((upto (last + 1) n).map (· % n)).findSome? fun u => (s.unitSpots d r m u).map (fun l => (u, l))

/-- Whether a die takes programs of a partition. -/
def State.dieOpen (s : State) (part d : Nat) : Bool :=
  bitOf (s.part part).dies d && (s.die d).status == .running && !(s.die d).inReset

/-! ### Candidates (R282, R283, R296, R299) -/

/-- A group to be placed: its launch, the declarations it is placed with, its programs and, of saved ones, their slots. -/
structure Cand where
  launch : Launch
  lrec : LaunchRecord
  progs : List (ProgId × Option Nat)
  splits : List Nat
  deriving DecidableEq, Repr

/-- Members of a candidate. -/
def Cand.members (c : Cand) : Members := c.progs.map (fun p => (p.1.mem, c.splits.contains p.1.mem))

/-- The program of a launch with an s2. -/
def Launch.program (l : Launch) (part n : Nat) : ProgId :=
  let g := max l.lrec.gsize 1
  { part := part, seq := l.seq, prog := n, group := n / g, mem := n % g, bin := l.bin.map (fun b => (b.1, b.2.1)),
    queue := l.queue, prio := l.prio }

/-- The s2 of a launch's next group never placed, or released from STARTING. -/
def Launch.fresh (l : Launch) : Option Nat :=
  match l.back with
  | n :: _ => some n
  | [] => if l.next < l.lrec.nprog then some l.next else none

/-- A program saved in a slot. -/
def Partition.savedIn (k : Partition) (slot : Nat) : Option Saved := k.savedProgs.find? (fun v => v.slot = slot)

/-- The declarations a saved program is placed with: its save record's launch record, where it keeps the ranges, in the
group it was launched in; else the one it was saved with (R298, R299). DEDUCED, log 58. -/
def State.savedRecord (s : State) (part : Nat) (v : Saved) : LaunchRecord :=
  let l := s.getVa part (s.slotVa part v.slot + 192) 64
  let r := recordOf l
  if r.inRange && reservedClear l then { r with gsize := v.lrec.gsize, nprog := v.lrec.nprog } else v.lrec

/-- Whether a save record says that its program is split. -/
def State.savedSplit (s : State) (part : Nat) (v : Saved) : Bool :=
  ((s.getVa part (s.slotVa part v.slot + 16) 1).headD 0).getLsbD 0

/-- The context of a number. -/
def ctxOfKey (k : Nat) : CtxRef := ⟨k / 384, k / 8 % 48, k % 8⟩

/-- Whether a member of a group still holds a context (R39, R53). -/
def State.groupLives (s : State) (part seq group : Nat) : Bool :=
  s.ctxs.any fun e => e.2.st != .empty && e.2.st != .draining && (ctxOfKey e.1).ok && e.2.prog.part = part
    && e.2.prog.seq = seq && e.2.prog.group = group

/-- The saved programs of a launch's group and its programs that a request has released, as a candidate; none while a
member still holds a context. DEDUCED, log 62. -/
def State.returned (s : State) (part : Nat) (l : Launch) (group : Nat) : Option Cand :=
  let vs := (l.saved.filterMap (s.part part).savedIn).filter (fun w => w.prog.group = group)
  let back := l.back.filter (fun n => n / max l.lrec.gsize 1 = group)
  if s.groupLives part l.seq group then none
  else some { launch := l, lrec := (vs.head?).elim l.lrec (s.savedRecord part),
              splits := (vs.filter (s.savedSplit part)).map (·.prog.mem),
              progs := back.map (fun n => (l.program part n, none)) ++ vs.map (fun w => (w.prog, some w.slot)) }

/-- The next group of a launch: fresh programs in ascending s2, then saved ones in order of saving (R282). -/
def State.candidateOf (s : State) (part : Nat) (l : Launch) : Option Cand :=
  match l.back with
  | n :: _ => s.returned part l (n / max l.lrec.gsize 1)
  | [] =>
    if l.next < l.lrec.nprog then
      some { launch := l, lrec := l.lrec, splits := [],
             progs := (List.range (max l.lrec.gsize 1)).map (fun m => (l.program part (l.next + m), none)) }
    else match (l.saved.head?).bind (s.part part).savedIn with
      | none => none
      | some v => s.returned part l v.prog.group

/-- Launches by priority, then by SEQ, the numbers before the next one in their order (R282). -/
def Partition.ordered (k : Partition) : List Launch :=
  let l := sortBy (fun l => (l.seq + 2 ^ 32 - k.seq.toNat) % 2 ^ 32) k.launches
  [3, 2, 1, 0].flatMap (fun p => l.filter (fun l => l.prio = p))

/-- Whether a launch has programs to be placed. -/
def Launch.waits (l : Launch) : Bool := l.fresh.isSome || !l.saved.isEmpty

/-- The candidates the front end may place now, in order: behind a launch that has waited too long only higher
priorities and that launch go (R282). -/
def State.candidates (s : State) (part : Nat) : List Cand :=
  let l : List Launch := (s.part part).ordered.filter Launch.waits
  let open_ : List Launch := match l.find? Launch.starved with
    | some t => l.filter (fun x => t.prio < x.prio || x.seq = t.seq)
    | none => l
  open_.filterMap (s.candidateOf part)

/-- The dies a candidate tries, after the one that took its launch's previous group (R283). -/
def State.diesFor (s : State) (part : Nat) (c : Cand) : List Nat :=
  let first := match c.launch.lastDie with
    | some d => d + 1
    | none => 0
  ((upto first 24).map (· % 24)).filter (fun d => bitOf c.lrec.dieMask d && s.dieOpen part d)

/-- Where a candidate fits now: die, core or cluster, and places. -/
def State.fit (s : State) (part : Nat) (c : Cand) : Option (Nat × Nat × List (Nat × Spot)) :=
  (s.diesFor part c).findSome? fun d => (s.dieSpots d c.lrec c.members).map (fun x => (d, x.1, x.2))

/-! ### A program starts (R37, R39) -/

/-- Bound of a launch record (R275, R293). -/
def LaunchRecord.bound (r : LaunchRecord) : Nat := if r.preb = 0 then 1048576 else max r.preb 1024

/-- An allocation of scratchpad and OSB cleared on every engine: the counters of its blocks advance (R37, R230). -/
def Core.clear (k : Core) (spad spadN osb osbN : Nat) : Core :=
  let inside (per base n key : Nat) : Bool := base ≤ key % per * 2048 && key % per * 2048 < base + n
  let keys := (List.range 16).flatMap (fun e => (upto (spad / 2048) (spadN / 2048)).map (fun b => e * 128 + b))
  { k with
    spad := k.spad.filter (fun p => !inside 128 spad spadN p.1)
    osb := k.osb.filter (fun p => !inside 32 osb osbN p.1)
    gen := keys.foldl (fun g b => nset g b (ngetD g b 0 + 1)) k.gen }

/-- A context as its program is placed (R37): its PC follows when STARTING completes. -/
def startContext (l : Launch) (r : LaunchRecord) (p : ProgId) (at_ : CtxRef) (spad osb now cycle : Nat) : Context :=
  let am : BitVec 16 := BitVec.ofNat 16 (2 ^ r.lanes - 1)
  let w (n : Nat) : Word := BitVec.ofNat 64 n
  let regs : NMap Word := [(1, r.arg), (2, w p.prog), (3, w p.group), (4, w p.mem), (5, w at_.die), (6, w at_.core)]
  { Context.zero with
    st := .starting, lrec := r, prog := p, handlerAddr := imgHandler l.imageEntry, entry := l.entryAddr, lm := am,
    ftz := bitOf r.ctl 0, uchk := bitOf r.ctl 1, prebound := BitVec.ofNat 32 r.bound,
    main := { Thread.zero with regs := regs, am := am },
    eng := (List.range 16).map (fun e => (e, { Engine.zero with e := [(0, w e)] })),
    spadBase := spad, osbBase := osb, stamp := cycle, safeFrom := cycle, placedAt := now }

/-- The table of a cluster becomes that of an image placed there while none is active (R303). -/
def State.claimTable (s : State) (c : CtxRef) (l : Launch) : State :=
  let u := c.core / 16 * 4 + c.core % 8 / 2
  let i := s.indigo c.die u
  if imgSlots l.imageEntry != 0 && i.image.isNone then
    s.setIndigo c.die u { i with image := some l.lrec.image, table := [] }
  else s

/-- One program takes its place, whose bank becomes the slot's issuing one where the other is EMPTY too (R333); the
budget of turns stays the context's (R314). A saved program stands there until it has been restored (R299). -/
def State.placeOne (s : State) (c : Cand) (p : ProgId × Option Nat) (at_ : Spot) : State :=
  let x := startContext c.launch c.lrec p.1 at_.at_ at_.spad at_.osb s.time s.cycle
  let k := s.core at_.at_.die at_.at_.core
  let k := k.clear at_.spad x.spadSize at_.osb x.osbSize
  let k := if p.2.isSome && c.splits.contains p.1.mem then { k with spareOwner := some at_.at_.ctx } else k
  let slot := at_.at_.ctx / 2
  let bank := at_.at_.ctx % 2
  let alone := (s.ctx { at_.at_ with ctx := 2 * slot + (1 - bank) }).st == .empty
  let k := if alone then { k with issuing := nset k.issuing slot bank, heldFrom := nerase k.heldFrom slot } else k
  let s := s.setCore at_.at_.die at_.at_.core k
  let old := s.ctx at_.at_
  let s := s.setCtx at_.at_ { x with
    budgetWin := old.budgetWin, budgetUsed := old.budgetUsed
    save := match p.2 with
      | some n => .resuming n
      | none => .none }
  s.claimTable at_.at_ c.launch

/-- A launch replaced. -/
def State.setLaunch (s : State) (part : Nat) (l : Launch) : State :=
  let k := s.part part
  s.setPart part { k with launches := k.launches.map (fun x => if x.seq = l.seq then l else x) }

/-- The launch after one of its groups is placed on a die. -/
def Launch.after (l : Launch) (c : Cand) (die now : Nat) : Launch :=
  let slots := c.progs.filterMap (·.2)
  let g := max l.lrec.gsize 1
  let l := { l with lastDie := some die, waitFrom := now, starved := false }
  let own := (c.progs.filter (·.2.isNone)).map (·.1.prog)
  if own.head? = some l.next && l.back.isEmpty then { l with next := l.next + g }
  else { l with saved := l.saved.filter (fun n => !slots.contains n), back := l.back.filter (fun n => !own.contains n) }

/-- A candidate takes its places. DEDUCED, log 65. -/
def State.place (s : State) (part : Nat) (c : Cand) (die : Nat) (l : List (Nat × Spot)) : State :=
  let s := c.progs.foldl (fun s p => match l.find? (fun e => e.1 = p.1.mem) with
    | some e => s.placeOne c p e.2
    | none => s) s
  s.setLaunch part (c.launch.after c die s.time)

/-- A candidate placed by the front end, the die's pointer following; none where it fits nowhere. -/
def State.placeFree (s : State) (part : Nat) (c : Cand) : Option State :=
  (s.fit part c).map fun x =>
    let d := s.die x.1
    let s := s.setDie x.1 (if c.lrec.gsize ≤ 1 then { d with lastCore := x.2.1 } else { d with lastCluster := x.2.1 })
    s.place part c x.1 x.2.2

/-- Whether a partition's scheduler runs. -/
def State.scheduling (s : State) (part : Nat) : Bool :=
  part < 4 && (s.part part).formed && !(s.part part).resetting && s.stage = 5

/-- Whether a DRAINING context has nothing left: its counters, its accesses and its units' commands, its window stores
and its records (R55, R359). -/
def State.drained (s : State) (c : CtxRef) : Bool :=
  let x := s.ctx c
  let k := s.core c.die c.core
  (List.range 4).all (fun n => ngetD x.wc n 0 = 0) && s.accs.all (fun a => a.by_.ctx != c)
    && k.rings.all (fun r => r.by_.ctx != c)
    && [Path.matrix, .quant, .copy, .gather, .coll].all (fun y => (s.unitIds c y).all (fun i => i.1 != c))
    && !s.windowPending (.gang c.die c.core c.ctx false) true s.nextId && !s.recordBehind c

/-- Whether a program of a partition that passes a test retires in this cycle: its DRAINING context has nothing left. -/
def State.retiring (s : State) (part : Nat) (test : CtxRef → Bool) : Bool :=
  s.ctxs.any fun e => e.2.st == .draining && e.2.prog.part = part && (ctxOfKey e.1).ok && test (ctxOfKey e.1)
    && s.drained (ctxOfKey e.1)

/-- Whether a context retires before another of the same cycle: in ascending core number, then by die and context (R286).
DEDUCED, log 64. -/
def CtxRef.before (a b : CtxRef) : Bool :=
  a.core < b.core || (a.core = b.core && (a.die < b.die || (a.die = b.die && a.ctx < b.ctx)))

/-- PLACE_GROUP (R282 to R285): the first candidate that fits is placed, after the refills of programs that retire in the
cycle (R300). -/
def execPlaceGroup (part : Nat) (s : State) : Answer :=
  if !s.scheduling part || s.retiring part (fun _ => true) then .next s
  else match (s.candidates part).findSome? (s.placeFree part) with
    | some t => .next t
    | none => .next s

/-- FRONT_END_STARVATION (R282): the earliest launch of the highest priority with programs to place has waited 100 µs. -/
def execFrontEndStarvation (part : Nat) (s : State) : Answer :=
  match (s.part part).ordered.find? Launch.waits with
  | some l => if l.waitFrom + 100 * tickUs ≤ s.time then .next (s.setLaunch part { l with starved := true }) else .next s
  | none => .next s

/-! ### STARTING (R39, R56, R277) -/

/-- The launch a program belongs to. -/
def State.launchOf (s : State) (p : ProgId) : Option Launch := (s.part p.part).launches.find? (fun l => l.seq = p.seq)

/-- The active table of a cluster, once read. -/
def State.loadTable (s : State) (c : CtxRef) : State :=
  let u := c.core / 16 * 4 + c.core % 8 / 2
  let i := s.indigo c.die u
  let x := s.ctx c
  if i.image = some x.lrec.image && i.table.isEmpty then s.setIndigo c.die u { i with table := x.slots } else s

/-- A read a STARTING program waits for. -/
def State.startRead (s : State) (c : CtxRef) (va n : Nat) : UnitRead × State :=
  if n = 0 then (.bytes [], s) else s.unitRead c.die (.starting c) va n

/-- A STARTING program whose table or entry cannot be read ends (R277). -/
def State.failStart (s : State) (c : CtxRef) (code : BitVec 8) (va : Nat) : State :=
  s.endProgram c false { s.systemCause code (BitVec.ofNat 64 va) with kind := 3 }

/-- The first fetch of a STARTING program fails: the cause stands before the program's first bundle, which it traps once
STARTING is complete (R361). -/
def State.failFirst (s : State) (c : CtxRef) (code : BitVec 8) (va : Nat) : State :=
  let x := s.ctx c
  let q : Cause := { x.main.cause s code (fetchKind code) (BitVec.ofNat 64 va) with at_ := x.main.issued }
  s.setCtx c { x with inbox := x.inbox ++ [(false, q)] }

/-- The words of bytes. -/
def words32 (l : List Byte) : List (BitVec 32) :=
  (List.range (l.length / 4)).map (fun i => BitVec.ofNat 32 (ofBytes ((l.drop (4 * i)).take 4)))

/-- Control words read as the image was loaded with them (R82). -/
def State.startTable (s : State) (c : CtxRef) (va n : Nat) : UnitRead × State :=
  if n = 0 then (.bytes [], s)
  else match s.unitMap c.die (.starting c) .read (sectors va n) with
    | (.wait, s) => (.wait, s)
    | (.fail k a, s) => (.fail k a, s)
    | (.at_ l, s) =>
      match s.unitFault c.die true l with
      | some (k, a) => (.fail k a, s)
      | none => (.bytes (l.flatMap (fun p => s.codeBytes (s.partN c.die) (s.ctx c).lrec.image p.2.2 p.2.1)), s)

/-- The first line of a program's code, brought into the core's instruction cache unless it is there (R39, R56), or unless
its fetch has failed. -/
def State.startCode (s : State) (c : CtxRef) (pc : Word) : UnitRead × State :=
  let line := pc.toNat / 64 * 64
  let img := (s.ctx c).lrec.image
  let have_ (l : ILine) : Bool := l.image = img && l.va = line
  if (s.core c.die c.core).icache.any have_ || !(s.ctx c).inbox.isEmpty then (.bytes [], s)
  else match s.unitMap c.die (.starting c) .fetch [(pc.toNat, 4, 0)] with
    | (.wait, s) => (.wait, s)
    | (.fail k a, s) => (.fail k a, s)
    | (.at_ l, s) =>
      let l := l.map (fun p => (line, 64, p.2.2 - pc.toNat % 64))
      match s.unitFault c.die true l with
      | some (k, a) => (.fail k a, s)
      | none =>
        let b := l.flatMap (fun p => s.codeBytes (s.partN c.die) img p.2.2 p.2.1)
        let k := s.core c.die c.core
        (.bytes b, s.setCore c.die c.core { k with
          icache := ({ image := img, va := line, words := lineWords b } :: k.icache).take 2048 })

/-- The reads of a STARTING program, one after another: its kernel entry, its CWT unless the bank holds it, and its
slot table. DEDUCED, log 66. -/
def State.startReads (s : State) (c : CtxRef) (l : Launch) : UnitRead × UnitRead × UnitRead × State :=
  let x := s.ctx c
  let held := nget (s.core c.die c.core).cwtTag c.ctx = some x.lrec.image
  let (a, s) := s.startRead c x.entry.toNat 8
  let (b, s) := s.startTable c (imgCwta l.imageEntry) (if held then 0 else 32 * imgCwtn l.imageEntry)
  let (t, s) := s.startRead c (imgSlots l.imageEntry) (if imgSlots l.imageEntry = 0 then 0 else 256)
  (a, b, t, s)

/-- STARTING done, with the CWT and the slot table as read: the rest of the CWT is idle, PC holds the kernel entry, and the
context is READY or RESIDENT (R37, R39, R277, R303, R367). -/
def State.completeStart (s : State) (c : CtxRef) (l : Launch) (b t : List Byte) (pc : Word) : State :=
  let img := (s.ctx c).lrec.image
  let k := s.core c.die c.core
  let s := if nget k.cwtTag c.ctx = some img then s else s.setCore c.die c.core { k with
    cwt := nset k.cwt c.ctx (putEntries [] 0 (entriesOf (imgCwtn l.imageEntry) b))
    cwtTag := nset k.cwtTag c.ctx img }
  let x := s.ctx c
  let s := s.setCtx c { x with
    slots := words32 t, main := { x.main with pc := pc }, inbox := x.inbox.map (fun e => (e.1, { e.2 with pc := pc })) }
  ((s.unlist c.die (.starting c)).loadTable c).makeReady c s.cycle

/-- STARTING_COMPLETE (R37, R39, R56, R277, R291, R303, R361, R367): the kernel entry, the tables and the first line of
code are read and the context leaves STARTING; a table or an entry that cannot be read ends the program, a first line that
cannot be fetched traps it. -/
def execStartingComplete (die core ctx : Nat) (s : State) : Answer :=
  let c : CtxRef := ⟨die, core, ctx⟩
  let x := s.ctx c
  if !c.ok || x.st != .starting || x.save != .none then .next s
  else match s.launchOf x.prog with
    | none => .next s
    | some l =>
      match s.startReads c l with
      | (.fail code va, _, _, s) => .next (s.failStart c code va)
      | (_, .fail code va, _, s) => .next (s.failStart c code va)
      | (_, _, .fail code va, s) => .next (s.failStart c code va)
      | (.bytes a, .bytes b, .bytes t, s) =>
        let pc := pcBits (BitVec.ofNat 64 (ofBytes a))
        match s.startCode c pc with
        | (.fail code va, s) => .next ((s.failFirst c code va).completeStart c l b t pc)
        | (.wait, s) => .next s
        | (.bytes _, s) => .next (s.completeStart c l b t pc)
      | (_, _, _, s) => .next s

/-! ### Retirement (R55, R286, R288) -/

/-- A context of the driver's request has been saved or has retired (R292). -/
def State.named (s : State) (part : Nat) (c : CtxRef) : State :=
  let k := s.part part
  let l := k.preNamed.filter (· != c)
  s.setPart part { k with preNamed := l, preDone := k.preDone || l.isEmpty }

/-- The active table of a cluster after one of its programs has gone: none of its image left, the table of the program
placed earliest whose image carries one follows (R303). -/
def State.passTable (s : State) (c : CtxRef) : State :=
  let u := c.core / 16 * 4 + c.core % 8 / 2
  let i := s.indigo c.die u
  let here := ((List.range 4).flatMap (fun p => (s.live c.die (clusterCore u p)).map (·.2)))
  match i.image with
  | none => s
  | some n =>
    if here.any (fun x => x.lrec.image = n) then s
    else
      let next := (here.filter (fun x => (s.launchOf x.prog).elim false (fun l => imgSlots l.imageEntry != 0))).foldl
        (fun (b : Option Context) x => match b with
          | none => some x
          | some y => if x.placedAt < y.placedAt then some x else b) none
      s.setIndigo c.die u { i with image := next.map (·.lrec.image), table := next.elim [] (·.slots) }

/-- A program counted as retired: a launch all of whose programs have retired stores NPROG to COMPL, a bin's batch
frees its slots (R280, R288). -/
def State.countRetired (s : State) (p : ProgId) : State :=
  match s.launchOf p with
  | none => s
  | some l =>
    let l := { l with retired := l.retired + 1 }
    if l.retired < l.lrec.nprog then s.setLaunch p.part l
    else
      let k := s.part p.part
      let s := s.setPart p.part { k with launches := k.launches.filter (fun x => x.seq != l.seq) }
      match l.bin with
      | some (d, b, id) => (s.freeBatch d b id).settleBatches p.part
      | none =>
        (s.owe p.part (s.firstDie p.part) l.seq l.lrec.compl (BitVec.ofNat 64 l.lrec.nprog) (some l.queue)).settleCompl p.part

/-- A context without a program: what its turns were charged stays (R314). -/
def Context.emptied (x : Context) : Context := { Context.zero with budgetWin := x.budgetWin, budgetUsed := x.budgetUsed }

/-- A context becomes EMPTY and its resources return. -/
def State.release (s : State) (c : CtxRef) : State :=
  ((s.setCtx c (s.ctx c).emptied).passTable c).settleSlot c.die c.core (c.ctx / 2)

/-- Candidates of a higher priority are placed as far as they fit, at most n of them: a module has no more contexts.
DEDUCED, log 64. -/
def State.placeHigher (s : State) (part prio : Nat) : Nat → State
  | 0 => s
  | n + 1 => match ((s.candidates part).filter (fun c => prio < c.launch.prio)).findSome? (s.placeFree part) with
    | some t => t.placeHigher part prio n
    | none => s

/-- The refill (R286): the next group of the launch on the core, or the cluster the group has left, that a program has
freed; the die's pointers stay. -/
def State.refill (s : State) (p : ProgId) (c : CtxRef) : State :=
  let u := c.core / 16 * 4 + c.core % 8 / 2
  match (s.launchOf p).bind (s.candidateOf p.part) with
  | none => s
  | some k =>
    let left := (List.range 4).all fun q =>
      (s.live c.die (clusterCore u q)).all (fun x => !(x.2.prog.seq = p.seq && x.2.prog.part = p.part && x.2.prog.group = p.group))
    if !bitOf k.lrec.dieMask c.die || !s.dieOpen p.part c.die || (1 < k.lrec.gsize && !left) then s
    else match s.unitSpots c.die k.lrec k.members (if k.lrec.gsize ≤ 1 then c.core else u) with
      | some l => s.place p.part k c.die l
      | none => s

/-- CONTEXT_RETIRE (R55, R286, R288): of the programs that retire in one cycle, the first in order. -/
def execContextRetire (die core ctx : Nat) (s : State) : Answer :=
  let c : CtxRef := ⟨die, core, ctx⟩
  let x := s.ctx c
  if !c.ok || x.st != .draining || !s.drained c || s.retiring x.prog.part (fun r => r.before c) then .next s
  else
    let p := x.prog
    let s := ((s.release c).countRetired p).named p.part c
    if s.scheduling p.part then .next ((s.placeHigher p.part p.prio 9216).refill p c) else .next s

/-! ### The slot's quantum (R40) -/

/-- BANK_SWITCH_QUANTUM (R40): the issuing bank has held its slot for 4,096 cycles with the other RESIDENT. -/
def execBankSwitchQuantum (die core slot : Nat) (s : State) : Answer :=
  let k := s.core die core
  let b := ngetD k.issuing slot 0
  let c : CtxRef := ⟨die, core, 2 * slot + b⟩
  let d : CtxRef := ⟨die, core, 2 * slot + (1 - b)⟩
  if 24 ≤ die || 48 ≤ core || 4 ≤ slot || !((s.ctx c).st == .ready || (s.ctx c).st == .issuing)
      || (s.ctx d).st != .resident || s.cycle < ngetD k.heldFrom slot s.cycle + 4096 then .next s
  else
    let s := s.setCore die core { k.switchSlot slot (1 - b) s.cycle with heldFrom := nset k.heldFrom slot (s.cycle + 1) }
    let s := s.setCtx c { s.ctx c with st := .resident }
    .next (s.setCtx d { s.ctx d with st := .ready, stamp := s.cycle + 1 })

end Sys2Proof.Machine
end

