-- ==== Sys2Proof/Machine/Save.lean ====
section
/-!
DEFINITION. Pre-emption requests, saving a program into its save record and resuming it (R59, R272, R287, R292 to
R299, R350, R354).
-/
namespace Sys2Proof.Machine

/-! ### Requests (R59, R287, R292) -/

/-- The contexts of a program's cluster group that have not retired, itself among them (R292). -/
def State.mates (s : State) (c : CtxRef) : List CtxRef :=
  (dieContexts c.die).filter fun r => r = c || ((s.ctx r).st != .empty && (s.ctx c).prog.mate (s.ctx r).prog)

/-- Those with a program that has not ended, itself among them: a request for one is a request for each (R287, R292).
DEDUCED, log 51. -/
def State.groupOf (s : State) (c : CtxRef) : List CtxRef :=
  (s.mates c).filter fun r => r = c || (s.ctx r).st != .draining

/-- A launch with programs pending again, by those it had to place before: where another is the next to go, it waits
from now on (R282). -/
def Launch.returned (l : Launch) (back saved : List Nat) (now : Nat) : Launch :=
  let next := if back.head? = l.back.head? && (!back.isEmpty || l.next < l.lrec.nprog || saved.head? = l.saved.head?)
    then l.waitFrom else now
  { l with back := back, saved := saved, waitFrom := next }

/-- A program in STARTING returns to pending at its place (R282, R287). -/
def State.returnProgram (s : State) (c : CtxRef) : State :=
  let x := s.ctx c
  let s := (s.freeSpare c).unlist c.die (.starting c)
  let s := match s.launchOf x.prog with
    | none => s
    | some l => match x.save with
      | .resuming n =>
        let order (m : Nat) : Nat := ((s.part x.prog.part).savedIn m).elim 0 (·.order)
        s.setLaunch x.prog.part (l.returned l.back (insertBy order n l.saved) s.time)
      | _ => s.setLaunch x.prog.part (l.returned (insertBy id x.prog.prog l.back) l.saved s.time)
  (s.release c).named x.prog.part c

/-- One context asked for: one in STARTING is released; several requests cause one save (R287, R292). -/
def State.ask (s : State) (src : PreemptSource) (c : CtxRef) : State :=
  let x := s.ctx c
  if x.st == .starting then s.returnProgram c
  else if x.st == .empty || x.st == .draining || x.want.isSome then s
  else s.setCtx c { x with want := some src }

/-- A request for a context, and for every member of its group, served at once where it can be (R287, R292, R294). -/
def State.request (s : State) (src : PreemptSource) (c : CtxRef) : State :=
  if (s.ctx c).st == .empty || (s.ctx c).st == .draining then s
  else
    let g := s.groupOf c
    g.foldl State.serveNow (g.foldl (State.ask · src) s)

/-- Requests that found no free slot meet one that has become free (R292). -/
def State.serveWaiting (s : State) (part : Nat) : State :=
  (s.ctxsOf part).foldl (fun s c => if (s.ctx c).want.isSome then s.serveNow c else s) s

/-- The contexts a PREEMPT value names (R292). -/
def State.preemptTargets (s : State) (part : Nat) (v : Word) : List CtxRef :=
  (if bitOf v 14 then s.ctxsOf part
    else [⟨(v.extractLsb' 9 5).toNat, (v.extractLsb' 3 6).toNat, (v.extractLsb' 0 3).toNat⟩]).filter
      (fun c => (s.ctx c).st != .empty)

/-- PREEMPT (R292): GO while DONE is 0, or with a die or a core that is not there, has no effect. DEDUCED, log 62. -/
def execPreempt (part : Nat) (v : Word) (s : State) : Answer :=
  let k := s.part part
  let go := bitOf v 63
  let bad := !bitOf v 14 && (!bitOf k.dies (v.extractLsb' 9 5).toNat || 48 ≤ (v.extractLsb' 3 6).toNat)
  if !s.bar0Open part false || (go && (!k.preDone || bad)) then .next s
  else
    let s := s.setPart part { k with preAll := bitOf v 14, preDie := v.extractLsb' 9 5, preCore := v.extractLsb' 3 6,
                                     preCtx := v.extractLsb' 0 3 }
    if !go then .next s
    else
      let l := s.preemptTargets part v
      let s := s.setPart part { s.part part with preNamed := l, preDone := l.isEmpty }
      .next (l.foldl (fun s c => s.request .driver c) s)

/-! ### Candidates for pre-emption (R59, R292) -/

/-- Whether a part is in a wait that R59 counts: YIELD, SLOTWAIT, or a WAITC on wc2 of a context with an open COLL. -/
def Thread.longWait (t : Thread) (coll : Bool) : Bool :=
  t.waits.any (fun w => match w with
    | .yield _ _ | .slotwait .. => true
    | .waitc n _ => n = 2 && coll
    | _ => false)

/-- Whether a context has been BLOCKED for more than 20 µs in such a wait. -/
def State.overdue (s : State) (c : CtxRef) : Bool :=
  let x := s.ctx c
  let coll := s.colls.any (fun i => i.members.any (fun m => m.by_.ctx = c && !m.written))
  x.st == .blocked && x.blockedAt + 20 * tickUs < s.time
    && (x.main.longWait coll || x.spare.elim false (fun t => t.longWait coll))

/-- What would be saved together: a context, or the members of its group. -/
abbrev Victim := List CtxRef

/-- The groups with a program in some cores of a die, each once. -/
def State.victims (s : State) (d : Nat) (cores : List Nat) : List Victim :=
  dedup ((cores.flatMap (fun c => (s.live d c).map (fun e => (⟨d, c, e.1⟩ : CtxRef)))).filter
    (fun c => (s.ctx c).st != .draining) |>.map s.groupOf)

/-- Sublists of victims with so many contexts in all, earlier ones first. -/
def pickVictims : List Victim → Nat → List (List Victim)
  | _, 0 => [[]]
  | [], _ + 1 => []
  | v :: r, n + 1 =>
    (if !v.isEmpty && v.length ≤ n + 1 then (pickVictims r (n + 1 - v.length)).map (v :: ·) else [])
      ++ pickVictims r (n + 1)

/-- The state as it would be with some contexts saved. -/
def State.without (s : State) (l : List CtxRef) : State := l.foldl (fun s c => (s.freeSpare c).setCtx c .zero) s

/-- Cores of a core, or of a cluster, as a candidate counts them. -/
def unitCores (g u : Nat) : List Nat := if g ≤ 1 then [u] else (List.range 4).map (clusterCore u)

/-- Whether a context's save is asked for or under way. -/
def Context.leaving (x : Context) : Bool := x.want.isSome || (match x.save with
  | .holding _ _ | .writing _ _ => true
  | _ => false)

/-- The fewest contexts of a unit whose saving lets a candidate fit there, among victims in a given order. -/
def State.fewest (s : State) (d u : Nat) (c : Cand) (vs : List Victim) : Option (List CtxRef) :=
  let total := vs.foldl (fun n v => n + v.length) 0
  (upto 1 total).findSome? fun n =>
    ((pickVictims vs n).map (·.flatten)).find? (fun l => ((s.without l).unitSpots d c.lrec c.members u).isSome)

/-- Whether a list of rankings goes before another of as many: the first that differs decides. -/
def ranksBefore : List (Nat × Nat) → List (Nat × Nat) → Bool
  | a :: l, b :: r => a.1 < b.1 || (a.1 = b.1 && (a.2 < b.2 || (a.2 = b.2 && ranksBefore l r)))
  | _, _ => false

/-- The best of the units of a candidate's permitted dies: the fewest contexts, then those whose ranking goes first, then
the lowest die and unit (R292). -/
def State.chooseVictims (s : State) (part : Nat) (c : Cand) (vs : Nat → List Nat → List Victim)
    (rank : CtxRef → Nat × Nat) : Option (List CtxRef) :=
  let n := if c.lrec.gsize ≤ 1 then 48 else 12
  ((List.range 24).filter (fun d => bitOf c.lrec.dieMask d && s.dieOpen part d)).foldl (fun best d =>
    (List.range n).foldl (fun best u =>
      match s.fewest d u c (vs d (unitCores c.lrec.gsize u)) with
      | none => best
      | some l => match best with
        | none => some l
        | some b =>
          if l.length < b.length || (l.length = b.length && ranksBefore (l.map rank) (b.map rank)) then some l
          else some b) best) none

/-- The victims of R59: every member BLOCKED, one overdue; longest blocked first. -/
def State.idleVictims (s : State) (d : Nat) (cores : List Nat) : List Victim :=
  sortBy (fun v => v.foldl (fun n c => min n (s.ctx c).blockedAt) s.time)
    ((s.victims d cores).filter (fun v =>
      (v.flatMap s.mates).all (fun c => (s.ctx c).st == .blocked) && v.any s.overdue))

/-- How a context ranks for a save by priority: the lowest priority first, then the most recently placed (R292). -/
def State.lowRank (s : State) (c : CtxRef) : Nat × Nat := ((s.ctx c).prog.prio, s.time - (s.ctx c).placedAt)

/-- The victims of a priority: lower than it, by their rank. -/
def State.lowVictims (s : State) (prio d : Nat) (cores : List Nat) : List Victim :=
  let low := (s.victims d cores).filter (fun v => v.all (fun c => (s.ctx c).prog.prio < prio))
  sortBy (fun v => v.foldl (fun n c => max n (s.lowRank c).1) 0)
    (sortBy (fun v => v.foldl (fun n c => min n (s.lowRank c).2) s.time) low)

/-- The contexts to save for a candidate that fits nowhere, nor will when the saves asked for are done: contexts that
wait long, else contexts of lower priority (R292). -/
def State.victimsFor (s : State) (part : Nat) (c : Cand) : Option (PreemptSource × List CtxRef) :=
  let going := (s.ctxsOf part).filter (fun r => (s.ctx r).leaving)
  if (s.fit part c).isSome || ((s.without going).fit part c).isSome then none
  else match s.chooseVictims part c s.idleVictims (fun _ => (0, 0)) with
    | some l => some (.waiting, l)
    | none => (s.chooseVictims part c (s.lowVictims c.launch.prio) s.lowRank).map fun l => (.priority, l)

/-- PREEMPT_CANDIDATE (R59, R292): the first of the front end's candidates that contexts can be saved for, while a save slot
is free. -/
def execPreemptCandidate (part : Nat) (s : State) : Answer :=
  if !s.scheduling part || (s.freeSlot part).isNone then .next s
  else match (s.candidates part).findSome? (s.victimsFor part) with
    | some (src, l) => .next (l.foldl (fun s r => s.request src r) s)
    | none => .next s

/-! ### The save record (R297, R298, R350) -/

/-- A dword, word and byte of a record. -/
def dw (v : Word) : List Byte := toBytes 8 v.toNat

/-- One level of the loop unit, 128 bytes: REM and ITER in four bytes each. -/
def levelBytes (v : LoopLevel) : List Byte :=
  let pairs := v.bind.flatMap (fun b => toBytes 8 b.1 ++ dw b.2)
  let l := dw v.start ++ dw v.last ++ toBytes 4 v.rem ++ toBytes 4 v.iter ++ toBytes 8 v.bind.length ++ pairs
  l ++ toBytes (128 - l.length) 0

/-- The fields of a part's region: registers, loop unit, depth, shadow bank, entry state and trap registers. -/
def partPieces (base : Nat) (t : Thread) : List (Nat × List Byte) :=
  let levels := t.loops.reverse.flatMap levelBytes
  let entry := match t.handler with
    | some h => toBytes 2 h.am.toNat ++ toBytes 1 h.loopDepth ++ toBytes 1 h.stackDepth
    | none => toBytes 4 0
  [(base, (List.range 32).flatMap (fun n => dw (t.reg n))),
   (base + 0x100, levels ++ toBytes (768 - levels.length) 0),
   (base + 0x400, toBytes 8 t.loops.length),
   (base + 0x500, (upto 24 8).flatMap (fun n => dw (ngetD t.shadow n 0))),
   (base + 0x540, entry),
   (base + 0x580, dw t.trapcause ++ dw t.trappc ++ dw t.trapval)]

/-- One entry of the reconvergence stack. -/
def stackBytes (spare : Bool) (e : StackEntry) : List Byte :=
  let j := e.join.toNat % 2 ^ 57 + (if spare then 2 ^ 61 else 0) + (if e.ph then 2 ^ 62 else 0)
    + (if e.split then 2 ^ 63 else 0)
  toBytes 8 j ++ dw e.resume ++ toBytes 2 e.full.toNat ++ toBytes 2 e.pend.toNat ++ toBytes 12 0

/-- All entries, bottom first: those below a split and its own, then each chain's. -/
def Context.stackList (x : Context) : List (Bool × StackEntry) :=
  x.base.reverse.map (fun e => (false, e)) ++ x.main.stack.reverse.map (fun e => (false, e))
    ++ (x.spare.elim [] (·.stack)).reverse.map (fun e => (true, e))

/-- The latches a part holds: its exposed results, those a handler left latched among them. -/
def Thread.latchCount (t : Thread) : Nat := t.pend.length + t.handler.elim 0 (·.pend.length)

/-- Latches of a context. -/
def Context.latches (x : Context) : Nat := x.main.latchCount + x.spare.elim 0 Thread.latchCount

/-- SRC: the bin or the queue a program was launched from (R298). -/
def ProgId.src (p : ProgId) : Nat :=
  match p.bin with
  | some (d, b) => 2 ^ 31 + d * 256 + b
  | none => p.queue

/-- The header of a record (R298). -/
def Context.header (x : Context) (hard : Bool) : List Byte :=
  let t := x.main
  let u := x.spare.getD .zero
  let flag (b : Bool) (n : Nat) : Nat := if b then 2 ^ n else 0
  let flags := flag x.spare.isSome 0 + flag hard 1 + flag (1 < x.lrec.gsize) 2
    + flag (t.handler.isSome || u.handler.isSome) 3 + flag t.arrived 4 + flag (x.spare.isSome && u.arrived) 5
  let l := [toBytes 4 1, toBytes 4 Config.revCode.toNat, toBytes 4 x.prog.src, toBytes 4 x.prog.seq, toBytes 4 flags,
    toBytes 1 x.stackList.length, toBytes 1 x.posts.length, toBytes 2 x.lm.toNat, toBytes 2 t.am.toNat,
    toBytes 2 u.am.toNat, toBytes 4 0, dw t.pc, dw u.pc, dw t.bundles, dw u.bundles,
    dw x.ctxctlWord, dw x.arstatWord, dw (x.prebound.setWidth 64), dw t.trapcause, dw t.trappc, dw t.trapval,
    (List.range 4).flatMap (fun n => toBytes 4 (ngetD x.arrive n 0)),
    (List.range 8).flatMap (fun n => dw (at' x.posts n 0)), x.lrec.bytes, toBytes 4 x.latches].flatten
  l ++ toBytes (4096 - l.length) 0

/-- The fields of one engine: scalars, conditions, shapes, records, accumulators, tile registers. -/
def Context.enginePieces (x : Context) (e : Nat) : List (Nat × List Byte) :=
  let g := x.engine e
  let b := 0x8000 + 0x1000 * e
  [(b, (List.range 16).flatMap (fun n => dw (g.scalar n))), (b + 128, toBytes 1 g.k.toNat),
   (b + 132, (List.range 4).flatMap (fun n => toBytes 1 (g.shape n).toNat)),
   (b + 256, (List.range 8).flatMap (fun n => toBytes 16 (g.record n).toNat))]
  ++ (List.range x.lrec.acc).map (fun n => (0x20000 + 0x8000 * e + 0x1000 * n, toBytes 4096 (g.accum n).toNat))
  ++ (List.range x.regsA).map (fun n => (0x1A0000 + 0x20000 * e + 0x800 * n, toBytes 2048 (g.tile .a n).toNat))
  ++ (List.range x.regsB).map (fun n => (0x3A0000 + 0x20000 * e + 0x800 * n, toBytes 2048 (g.tile .b n).toNat))

/-- Everything a save writes, by its offset in the slot. A latch takes 64 KiB in a layout the manual leaves to REV. -/
def State.recordPieces (s : State) (c : CtxRef) (hard : Bool) : List (Nat × List Byte) :=
  let x := s.ctx c
  let cwt := ngetD (s.core c.die c.core).cwt c.ctx []
  [(0, x.header hard)] ++ partPieces 0x1000 x.main ++ (x.spare.elim [] (partPieces 0x2000))
  ++ [(0x3000, x.stackList.flatMap (fun e => stackBytes e.1 e.2)),
      (0x3400, (List.range 16).flatMap (fun n => toBytes 16 (ngetD x.mg n 0).toNat)
        ++ (List.range 16).flatMap (fun n => toBytes 16 (ngetD x.tl n 0).toNat)),
      (0x4000, (List.range 512).flatMap (fun n => toBytes 32 (ngetD cwt n 0).toNat))]
  ++ (List.range 16).flatMap x.enginePieces
  ++ (List.range 16).map (fun e => (recordOsb e, s.progOsb c e 0 x.osbSize))
  ++ (List.range 16).map (fun e => (recordSpad e, s.progSpad c e 0 x.spadSize))
  ++ [(0xA00000, (List.range (65536 * x.latches)).map Config.latchByte)]

/-! ### Saving (R296) -/

/-- Whether nothing that a save waits for is left: the counters wc0 and wc1 and the scoreboard (R296 step 2). -/
def State.savable (s : State) (c : CtxRef) : Bool :=
  let x := s.ctx c
  let k := s.core c.die c.core
  ngetD x.wc 0 0 = 0 && ngetD x.wc 1 0 = 0
    && k.matq.all (fun m => m.by_.ctx != c) && k.morq.all (fun m => m.by_.ctx != c)

/-- A place standing for another. -/
def CtxRef.moved (a b c : CtxRef) : CtxRef := if c = a then b else c

/-- A part of one context standing for the same part of another. -/
def movedPart (a b : CtxRef) (p : PartRef) : PartRef :=
  match p with
  | .gang d c x sp => if (⟨d, c, x⟩ : CtxRef) = a then .gang b.die b.core b.ctx sp else p
  | .ochre _ _ => p

/-- Commands, accesses and window transfers that a context has outstanding stand for another place (R296, R299). -/
def State.moveIssuer (s : State) (a b : CtxRef) : State :=
  let own (t : IndigoTransfer) : IndigoTransfer := t.owned (movedPart a b)
  let s := s.mapIssuers fun i => { i with ctx := a.moved b i.ctx }
  { s with
    accs := s.accs.map (fun x => { x with who := movedPart a b x.who })
    clusters := s.clusters.map (fun e => (e.1, { e.2 with waiting := e.2.waiting.map own, flying := e.2.flying.map own }))
    parts := s.parts.map (fun e => (e.1, { e.2 with flush := e.2.flush.map (fun f => (movedPart a b f.1, f.2)) })) }

/-- Window stores on their way into a saved program's scratchpad go into its save record (R296). -/
def State.moveWrites (s : State) (c : CtxRef) (part slot : Nat) : State :=
  let x := s.ctx c
  let move (w : WindowWrite) : WindowWrite :=
    if w.1 = c.core && x.spadBase ≤ w.2.2.1 && w.2.2.1 < x.spadBase + x.spadSize then
      (savedWindow part slot, w.2.1, w.2.2.1 - x.spadBase, w.2.2.2)
    else w
  let own (t : IndigoTransfer) : IndigoTransfer := { t with writes := t.writes.map move }
  { s with clusters := s.clusters.map (fun e => if e.1 / 12 = c.die then
      (e.1, { e.2 with waiting := e.2.waiting.map own, flying := e.2.flying.map own }) else e) }

/-- A slot of a partition that has no program any more. -/
def State.dropSaved (s : State) (part slot : Nat) : State :=
  let k := s.part part
  let s := s.setPart part { k with savedProgs := k.savedProgs.filter (fun v => v.slot != slot) }
  s.setCtx (savedPlace part slot) .zero

/-- The cause of a saved program that holds more causes than a part may: the code of the seventeenth (R354). DEDUCED, log
95. -/
def Context.overfull (x : Context) : Option (BitVec 8 × Word) :=
  let held (sp : Bool) (t : Thread) : List Cause := t.causes ++ (x.inbox.filter (fun e => e.1 = sp)).map (·.2)
  let extra := (held false x.main)[16]? <|> x.spare.bind (fun t => (held true t)[16]?)
  extra.map (fun q => (0x14, q.code.setWidth 64))

/-- The dies that are home to the pages of a save slot. -/
def State.slotHomes (s : State) (part slot : Nat) : List Nat :=
  dedup ((List.range 256).filterMap fun n =>
    let va := s.slotVa part slot + 65536 * n
    match s.walk part va with
    | .ok t =>
      let pa := s.fold ((t.leaf.toNat >>> 16 % 2 ^ 36) * 65536 + va % t.size)
      if paLocal pa then some (paDie pa) else none
    | .error _ => none)

/-- The cause of a program saved into a slot that a contained die is home to: it ends when it is placed (R403). -/
def State.slotLost (s : State) (part slot : Nat) : Option (BitVec 8 × Word) :=
  ((s.slotHomes part slot).find? (fun d => bitOf (s.part part).dies d && (s.die d).status != .running)).map
    fun d => (0xA3, BitVec.ofNat 64 d)

/-- A context's program leaves it for its slot, once its record stands (R296 step 4). -/
def State.leaveFor (s : State) (c : CtxRef) (hard : Bool) (slot : Nat) : State :=
  let x := s.ctx c
  let part := x.prog.part
  let place := savedPlace part slot
  let k := s.part part
  let v : Saved := { slot := slot, prog := x.prog, lrec := x.lrec, hard := hard, order := k.saveOrder, home := c,
                     tagged := nget (s.core c.die c.core).cwtTag c.ctx = some x.lrec.image, doom := x.overfull <|> s.slotLost part slot }
  let s := s.setPart part { k with savedProgs := k.savedProgs ++ [v], saveOrder := k.saveOrder + 1 }
  let s := match s.launchOf x.prog with
    | some l => s.setLaunch part (l.returned l.back (l.saved ++ [slot]) s.time)
    | none => s
  let s := ((s.moveWrites c part slot).moveIssuer c place).setCtx place
    { x with st := .blocked, save := .none, want := none, main := x.main.latch, spare := x.spare.map Thread.latch }
  let s := (s.unlistPart (.gang c.die c.core c.ctx false)).unlistPart (.gang c.die c.core c.ctx true)
  (((s.freeSpare c).release c).unlist c.die (.saving c)).named part c

/-- Pieces at their offsets from an address, laid out in memory: their sectors with what they take, or what stops it. -/
def State.layOut (s : State) (c : CtxRef) (base : Nat) (l : List (Nat × List Byte)) : UnitMap × List Byte × State :=
  match s.unitMap c.die (.saving c) .write (l.flatMap (fun p => sectors (base + p.1) p.2.length)) with
  | (.at_ q, s) => match s.unitFault c.die false q with
    | some (code, va) => (.fail code va, l.flatMap (·.2), s)
    | none => (.at_ q, l.flatMap (·.2), s)
  | (m, s) => (m, l.flatMap (·.2), s)

/-- The record of one context laid out in its slot. -/
def State.mapRecord (s : State) (c : CtxRef) (hard : Bool) (slot : Nat) : UnitMap × List Byte × State :=
  s.layOut c (s.slotVa (s.ctx c).prog.part slot) (s.recordPieces c hard)

/-- The records of members of a group as they are laid out: every page at hand, or what stops the first that is not. -/
abbrev MappedRecords := Except (Option (CtxRef × BitVec 8 × Nat)) (List (List (Nat × Nat × Nat) × List Byte))

/-- One member's after those of others. -/
def mapAfter (q : List (List (Nat × Nat × Nat) × List Byte)) (c : CtxRef) : UnitMap × List Byte × State → MappedRecords × State
  | (.wait, _, s) => (.error none, s)
  | (.fail code va, _, s) => (.error (some (c, code, va)), s)
  | (.at_ m, l, s) => (.ok (q ++ [(m, l)]), s)

/-- Those of all members of a list. -/
def State.mapRecords (s : State) (l : List (CtxRef × Bool × Nat)) : MappedRecords × State :=
  l.foldl (fun x e => match x with
    | (.ok q, s) => mapAfter q e.1 (s.mapRecord e.1 e.2.1 e.2.2)
    | x => x) (.ok [], s)

/-- A save given up: the program ends with the fault's cause, and its slot is free for a request that waits (R292,
R296). -/
def State.failSave (s : State) (c : CtxRef) (code : BitVec 8) (va : Nat) : State :=
  ((s.endProgram c false { s.systemCause code (BitVec.ofNat 64 va) with kind := 3 }).unlist c.die (.saving c)).serveWaiting
    (s.partN c.die)

/-- SAVE_RECORD_WRITE (R296): once a held context, and every member of its group, has nothing left that the save waits
for, its record is written and it becomes EMPTY. -/
def execSaveRecordWrite (die core ctx : Nat) (s : State) : Answer :=
  let c : CtxRef := ⟨die, core, ctx⟩
  let g := if c.ok then s.groupOf c else []
  let held := g.filterMap (fun r => match (s.ctx r).save with
    | .holding hard slot => some (r, hard, slot)
    | _ => none)
  if g.isEmpty || held.length != g.length || !g.all s.savable || (s.ctx c).st == .empty then .next s
  else match s.mapRecords held with
    | (.error none, s) => .next s
    | (.error (some (r, code, va)), s) => .next (s.failSave r code va)
    | (.ok l, s) =>
      let s := (held.zip l).foldl (fun s e => s.unitWrite e.2.1 e.2.2 (s.ctxTag e.1.1)) s
      .next (held.foldl (fun s e => s.leaveFor e.1 e.2.1 e.2.2) s)

/-! ### Resuming (R298, R299) -/

/-- The bytes of a record as read: offset and bytes of each region. -/
abbrev RecordBytes := List (Nat × List Byte)

/-- A number of n bytes at an offset of a record. -/
def recNum (r : RecordBytes) (off n : Nat) : Nat :=
  match r.find? (fun p => p.1 ≤ off && off + n ≤ p.1 + p.2.length) with
  | some p => field p.2 (off - p.1) n
  | none => 0

def recWord (r : RecordBytes) (off : Nat) : Word := BitVec.ofNat 64 (recNum r off 8)

/-- The numbers of n bytes each that a list of bytes holds, the first k of them. -/
def numbersOf (n : Nat) : Nat → List Byte → List Nat
  | 0, _ => []
  | k + 1, l => ofBytes (l.take n) :: numbersOf n k (l.drop n)

/-- k numbers of n bytes each from an offset of a record on. -/
def recNums (r : RecordBytes) (off n k : Nat) : List Nat :=
  match r.find? (fun p => p.1 ≤ off && off + n * k ≤ p.1 + p.2.length) with
  | some p => numbersOf n k (p.2.drop (off - p.1))
  | none => []

/-- The bytes of the launch record in a save record, and the record (R298). -/
def recLaunch (r : RecordBytes) : List Byte := ((r.headD (0, [])).2.drop 192).take 64
def lrecOf (r : RecordBytes) : LaunchRecord := recordOf (recLaunch r)

/-- Whether a loop unit's region keeps its ranges: its depth, the addresses of its bundles, and the counts and registers of
its bindings. -/
def loopsOk (r : RecordBytes) (b : Nat) : Bool :=
  recNum r (b + 0x400) 8 ≤ 6 && (List.range (recNum r (b + 0x400) 8)).all fun n =>
    let l := b + 0x100 + 128 * n
    recNum r l 8 % 4 = 0 && recNum r (l + 8) 8 % 4 = 0 && recNum r (l + 24) 8 ≤ 4 && (List.range (recNum r (l + 24) 8)).all (fun j => recNum r (l + 32 + 16 * j) 8 < 32)

/-- Whether a part's trap registers and entry state keep theirs. -/
def trapOk (r : RecordBytes) (b : Nat) : Bool :=
  recNum r (b + 0x542) 1 ≤ 6 && recNum r (b + 0x543) 1 ≤ 32 && recWord r (b + 0x580) &&& ~~~causeMask = 0
    && recWord r (b + 0x588) &&& ~~~(pcBits (BitVec.allOnes 64)) = 0

/-- Whether a mask of a record names lanes of its program alone. -/
def maskOk (r : RecordBytes) (off : Nat) : Bool := recNum r off 2 < 2 ^ (lrecOf r).lanes

/-- Whether bytes of a record are the zeros it keeps there. -/
def zerosAt (r : RecordBytes) (off n : Nat) : Bool := recNum r off n = 0

/-- Whether the reconvergence stack's entries keep their ranges: JOIN and RESUME addresses of bundles, FULL and PEND masks,
the rest zero (R297). -/
def entriesOk (r : RecordBytes) : Bool :=
  (List.range (recNum r 20 1)).all fun n =>
    let b := 0x3000 + 32 * n
    pcBits (recWord r b) = recWord r b &&& ~~~(7#64 <<< 61) && pcBits (recWord r (b + 8)) = recWord r (b + 8)
      && maskOk r (b + 16) && maskOk r (b + 18) && zerosAt r (b + 20) 12

/-- Whether the layout and matrix records and the control words of a record obey their rules (R3, R90, R376). -/
def tablesOk (r : RecordBytes) : Bool :=
  (recNums r 0x3400 16 16).all (fun v => mgOk (BitVec.ofNat 128 v))
    && (recNums r 0x3500 16 16).all (fun v => tlOk (BitVec.ofNat 128 v))
    && (recNums r 0x4000 32 512).all (fun v => entryOk (BitVec.ofNat 256 v))

/-- Whether an engine's fields do: conditions, shape codes (R153) and OSB records, one never written being all zeros. -/
def engineOk (r : RecordBytes) (e : Nat) : Bool :=
  let b := 0x8000 + 0x1000 * e
  recNum r (b + 128) 1 < 16 && (recNums r (b + 132) 1 4).all (fun v => shapeLegal (BitVec.ofNat 8 v))
    && (recNums r (b + 256) 16 8).all (fun v => v = 0 || obOk (BitVec.ofNat 128 v))

/-- Whether the fields of a record that stand at fixed places do: FORMAT, FLAGS, the depths, postings, latches, masks, the
program counters, the CSRs, the launch record, the loop units, the trap registers, and zeros in what is reserved. -/
def fixedOk (r : RecordBytes) : Bool :=
  let split := recNum r 16 4 % 2 = 1
  let pc (o : Nat) : Bool := pcBits (recWord r o) = recWord r o
  recNum r 0 4 = 1 && recNum r 16 4 < 64 && recNum r 20 1 ≤ 32 && recNum r 21 1 ≤ 8
    && maskOk r 22 && maskOk r 24 && maskOk r 26 && zerosAt r 28 4 && zerosAt r 260 3836
    && recNum r 256 4 ≤ 64 && (lrecOf r).inRange && reservedClear (recLaunch r) && pc 32 && (!split || pc 40)
    && recNum r 64 8 < 8 && recNum r 72 8 < 128 && 1024 ≤ recNum r 80 8 && recNum r 80 8 < 2 ^ 32
    && recWord r 88 &&& ~~~causeMask = 0 && pc 96
    && loopsOk r 0x1000 && trapOk r 0x1000 && (!split || (loopsOk r 0x2000 && trapOk r 0x2000))

/-- Whether the fields of a record keep their ranges (R3, R297, R298): those at fixed places, the stack, the tables and the
engines' fields. DEDUCED, log 58. -/
def fieldsOk (r : RecordBytes) : Bool := fixedOk r && entriesOk r && tablesOk r && (List.range 16).all (engineOk r)

/-- Whether a record is that of the program saved in its slot: SRC, SEQ, GROUP, NPROG and GSIZE say which program it is, so
only its launch's own values are in range (R298). DEDUCED, log 58. -/
def Saved.named (v : Saved) (r : RecordBytes) : Bool :=
  recNum r 8 4 = v.prog.src && recNum r 12 4 = v.prog.seq && (recNum r 16 4 >>> 2 % 2 = 1) = (1 < v.lrec.gsize)
    && (lrecOf r).gsize = v.lrec.gsize && (lrecOf r).nprog = v.lrec.nprog

/-- A record resumes a program where all that holds and REV is the module's own. -/
def recordOk (v : Saved) (r : RecordBytes) : Bool := recNum r 4 4 = Config.revCode.toNat && fieldsOk r && v.named r

/-- One level of a loop unit. -/
def levelOf (r : RecordBytes) (b : Nat) : LoopLevel :=
  { start := recWord r b, last := recWord r (b + 8), rem := recNum r (b + 16) 4, iter := recNum r (b + 20) 4,
    bind := (List.range (recNum r (b + 24) 8)).map (fun j =>
      (recNum r (b + 32 + 16 * j) 8, recWord r (b + 40 + 16 * j))) }

/-- A part's handler as FLAGS[3] has it: the one that stands with the slot, with the entry state of the record; none
where the bit is clear; one of the record's entry state where the bit is set and no part had one. DEDUCED, log 58. -/
def handlerOf (r : RecordBytes) (b : Nat) (t : Thread) (fresh : Bool) : Option HandlerEntry :=
  if recNum r 16 4 >>> 3 % 2 = 0 then none
  else
    let entry (h : HandlerEntry) : HandlerEntry := { h with
      am := BitVec.ofNat 16 (recNum r (b + 0x540) 2), loopDepth := recNum r (b + 0x542) 1, stackDepth := recNum r (b + 0x543) 1 }
    match t.handler with
    | some h => some (entry h)
    | none => if fresh then some (entry { am := 0, loopDepth := 0, stackDepth := 0, pend := [], la := [], code := 0 }) else none

/-- A part restored: what the record holds over what stands with the slot. -/
def threadOf (r : RecordBytes) (b : Nat) (spare fresh : Bool) (t : Thread) : Thread :=
  let i := if spare then 1 else 0
  { t with
    regs := (upto 1 31).map (fun n => (n, recWord r (b + 8 * n)))
    loops := ((List.range (recNum r (b + 0x400) 8)).map (fun n => levelOf r (b + 0x100 + 128 * n))).reverse
    pc := pcBits (recWord r (32 + 8 * i))
    am := BitVec.ofNat 16 (recNum r (24 + 2 * i) 2)
    issued := recWord r (48 + 8 * i) - t.hissued
    shadow := (upto 24 8).map (fun n => (n, recWord r (b + 0x500 + 8 * (n - 24))))
    trapcause := recWord r (if spare then b + 0x580 else 88) &&& causeMask
    trappc := pcBits (recWord r (if spare then b + 0x588 else 96))
    trapval := recWord r (if spare then b + 0x590 else 104)
    arrived := recNum r 16 4 >>> (4 + i) % 2 = 1
    handler := handlerOf r b t fresh }

/-- The stack's entries, bottom first, each with its chain. -/
def stackOf (r : RecordBytes) : List (Bool × StackEntry) :=
  (List.range (recNum r 20 1)).map fun n =>
    let b := 0x3000 + 32 * n
    let j := recWord r b
    (bitOf j 61, { split := bitOf j 63, ph := bitOf j 62, join := BitVec.ofNat 64 (j.toNat % 2 ^ 57),
                   resume := recWord r (b + 8), full := BitVec.ofNat 16 (recNum r (b + 16) 2),
                   pend := BitVec.ofNat 16 (recNum r (b + 18) 2) })

/-- An engine restored. -/
def engineOf (r : RecordBytes) (x : Context) (e : Nat) : Engine :=
  let b := 0x8000 + 0x1000 * e
  { e := (List.range 16).map (fun n => (n, recWord r (b + 8 * n)))
    k := BitVec.ofNat 4 (recNum r (b + 128) 1)
    sh := (List.range 4).map (fun n => (n, BitVec.ofNat 8 (recNum r (b + 132 + n) 1)))
    ob := (List.range 8).map (fun n => (n, BitVec.ofNat 128 (recNum r (b + 256 + 16 * n) 16)))
    acc := (List.range x.lrec.acc).map (fun n =>
      (n, BitVec.ofNat 32768 (recNum r (0x20000 + 0x8000 * e + 0x1000 * n) 4096)))
    ta := (List.range x.regsA).map (fun n => (n, BitVec.ofNat 16384 (recNum r (0x1A0000 + 0x20000 * e + 0x800 * n) 2048)))
    tb := (List.range x.regsB).map (fun n => (n, BitVec.ofNat 16384 (recNum r (0x3A0000 + 0x20000 * e + 0x800 * n) 2048))) }

/-- Latches beyond a number leave a part, those of its handler's interrupted bundles last. DEDUCED, log 58. -/
def Thread.keepLatches (t : Thread) (n : Nat) : Thread :=
  { t with pend := t.pend.take n, handler := t.handler.map fun h => { h with pend := h.pend.take (n - t.pend.length) } }

/-- A context restored from its record, with what stood with the slot (R299 steps 2 and 4). -/
def restored (r : RecordBytes) (x0 new : Context) (time cycle : Nat) : Context :=
  let split := recNum r 16 4 % 2 = 1
  let st := stackOf r
  let below := (st.filter (fun e => !e.1)).map (·.2)
  let under := if split then (below.reverse.dropWhile (fun e => !e.split)) else []
  let own := below.drop under.length
  let other := (st.filter (·.1)).map (·.2)
  let ctl := recWord r 64
  let arrive := (List.range 4).map (fun n => (n, recNum r (112 + 4 * n) 4))
  let n := recNum r 21 1
  let y : Context := { x0 with lrec := lrecOf r }
  let spare0 := x0.spare.getD .zero
  let fresh := x0.main.handler.isNone && spare0.handler.isNone
  let m := (threadOf r 0x1000 false fresh x0.main).keepLatches (recNum r 256 4)
  let u := (threadOf r 0x2000 true false spare0).keepLatches (recNum r 256 4 - m.latchCount)
  { y with
    slots := new.slots, handlerAddr := new.handlerAddr, spadBase := new.spadBase, osbBase := new.osbBase
    placedAt := time, stamp := cycle, safeFrom := cycle, streak := 0, starve := 0, save := .none, want := none, wc := []
    lm := BitVec.ofNat 16 (recNum r 22 2), ftz := bitOf ctl 0, uchk := bitOf ctl 1, udis := bitOf ctl 2
    arstat := BitVec.ofNat 7 (recNum r 72 8), prebound := BitVec.ofNat 32 (recNum r 80 8)
    arrive := arrive, counted := arrive, arrivals := []
    posts := (List.range n).map (fun k => recWord r (128 + 8 * k)), cpyy := n
    mg := (List.range 16).map (fun k => (k, BitVec.ofNat 128 (recNum r (0x3400 + 16 * k) 16)))
    tl := (List.range 16).map (fun k => (k, BitVec.ofNat 128 (recNum r (0x3500 + 16 * k) 16)))
    eng := (List.range 16).map (fun e => (e, engineOf r y e))
    base := under, budgetWin := new.budgetWin, budgetUsed := new.budgetUsed
    main := { m with stack := own.reverse }
    spare := if split then some { u with stack := other.reverse } else none }

/-- Regions of a record by offset and length, for an allocation. -/
def regionsOf (x : Context) (split : Bool) (depth : Nat) : List (Nat × Nat) :=
  [(0x1000, 0x598)] ++ (if split then [(0x2000, 0x598)] else []) ++ [(0x3000, 32 * depth), (0x3400, 512), (0x4000, 16384)]
  ++ (List.range 16).flatMap (fun e => [(0x8000 + 0x1000 * e, 384), (0x20000 + 0x8000 * e, 0x1000 * x.lrec.acc),
      (recordOsb e, x.osbSize), (0x1A0000 + 0x20000 * e, 0x800 * x.regsA), (0x3A0000 + 0x20000 * e, 0x800 * x.regsB),
      (recordSpad e, x.spadSize)])

/-- Regions of a slot read for a program that resumes, or what stops it. -/
def State.readRegions (s : State) (c : CtxRef) (base : Nat) : List (Nat × Nat) →
    Except (Option (BitVec 8 × Nat)) RecordBytes × State
  | [] => (.ok [], s)
  | (off, n) :: r =>
    match s.startRead c (base + off) n with
    | (.wait, s) => (.error none, s)
    | (.fail code va, s) => (.error (some (code, va)), s)
    | (.bytes l, s) => match s.readRegions c base r with
      | (.ok q, s) => (.ok ((off, l) :: q), s)
      | e => e

/-- Whether everything a saved program had outstanding is complete, ring service aside, and every store of others that it
has read is acknowledged (R272, R299 step 1). -/
def State.placeSettled (s : State) (place : CtxRef) : Bool :=
  s.ctxSeenDone place && s.clusters.all (fun k => (k.2.waiting ++ k.2.flying).all (fun t => t.who.ctx? != some place))
    && s.accs.all (fun a => a.by_.ctx != place) && (s.dies.all fun e => e.2.gq.all (fun g => g.by_.ctx != place)
      && e.2.ochre.all (fun o => o.2.req.all (fun g => g.by_.ctx != place)))
    && (s.cores.all fun e => e.2.copies.all (fun m => m.by_.ctx != place)
      && e.2.strq.all (fun i => match i with | .copy m => m.by_.ctx != place | .ring _ => true))
    && s.colls.all (fun i => i.members.all (fun m => m.by_.ctx != place))

/-- A program that cannot resume ends; its slot is free (R298, R392). One charged with an eviction's poison has its
record already (R394). -/
def State.endResume (s : State) (c : CtxRef) (slot : Nat) (code : BitVec 8) (kind : BitVec 3) (va : Nat) : State :=
  let part := (s.ctx c).prog.part
  let s := (s.freeSpare c).moveIssuer (savedPlace part slot) c
  let s := if code = 0x4A then s.drainFaulted c
    else s.endProgram c false { s.systemCause code (BitVec.ofNat 64 va) with kind := kind }
  let s := s.dropSaved part slot
  s.unlist c.die (.starting c)

/-- The bytes of the record's memory regions put into the new allocation. -/
def State.restoreBytes (s : State) (c : CtxRef) (r : RecordBytes) : State :=
  (List.range 16).foldl (fun s e =>
    let x := s.ctx c
    let get (off : Nat) : List Byte := ((r.find? (fun p => p.1 = off)).map (·.2)).getD []
    (s.spadPut c.die c.core e x.spadBase (get (recordSpad e))).osbWrite c.die c.core e x.osbBase (get (recordOsb e))) s

/-- Pending causes meet a context that can issue (R354). -/
def State.takeAll (s : State) (c : CtxRef) : State :=
  let s := s.takePending (.gang c.die c.core c.ctx false)
  if (s.ctx c).spare.isSome then s.takePending (.gang c.die c.core c.ctx true) else s

/-- One program restored and going on (R299 steps 2 to 5). -/
def State.restore (s : State) (c : CtxRef) (slot : Nat) (v : Saved) (r : RecordBytes) (slots : List (BitVec 32)) : State :=
  let new := s.ctx c
  let part := new.prog.part
  let place := savedPlace part slot
  let s := (s.moveIssuer place c).setCtx c (restored r (s.ctx place) { new with slots := slots } s.time s.cycle)
  let s := s.restoreBytes c r
  let k := s.core c.die c.core
  let cwt := (List.range 512).map (fun n => (n, BitVec.ofNat 256 (recNum r (0x4000 + 32 * n) 32)))
  let s := s.setCore c.die c.core { k with
    cwt := nset k.cwt c.ctx cwt
    cwtTag := if v.tagged then nset k.cwtTag c.ctx (s.ctx c).lrec.image else nerase k.cwtTag c.ctx }
  let s := ((s.dropSaved part slot).unlist c.die (.starting c)).loadTable c
  let s := (s.makeReady c s.cycle).settleBlock c
  if (s.ctx c).st == .blocked then s else s.takeAll c

/-- The regions that a record's header tells of, and then n bytes of a slot table, read after the header. -/
def State.readsAfter (s : State) (c : CtxRef) (base : Nat) (h : RecordBytes) (l : List (Nat × Nat)) (tab n : Nat) :
    Except (Option (BitVec 8 × Nat)) (RecordBytes × List (BitVec 32)) × State :=
  match s.readRegions c base l with
  | (.error e, s) => (.error e, s)
  | (.ok r, s) =>
    match s.startRead c tab n with
    | (.wait, s) => (.error none, s)
    | (.fail code va, s) => (.error (some (code, va)), s)
    | (.bytes t, s) => (.ok (h ++ r, words32 t), s)

/-- What a program reads to resume: so many bytes of its record's header, the rest of its record, and its image's slot
table. -/
def State.readsFor (s : State) (c : CtxRef) (slot header : Nat) :
    Except (Option (BitVec 8 × Nat)) (RecordBytes × List (BitVec 32)) × State :=
  let x := s.ctx c
  let base := s.slotVa x.prog.part slot
  match s.readRegions c base [(0, header)] with
  | (.error e, s) => (.error e, s)
  | (.ok h, s) =>
    let split := recNum h 16 4 % 2 = 1
    let tab := (s.launchOf x.prog).elim 0 (fun l => imgSlots l.imageEntry)
    s.readsAfter c base h (regionsOf x split (min (recNum h 20 1) 32)) tab (if tab = 0 then 0 else 256)

/-- The same, the whole header. -/
def State.resumeReads (s : State) (c : CtxRef) (slot : Nat) :
    Except (Option (BitVec 8 × Nat)) (RecordBytes × List (BitVec 32)) × State :=
  s.readsFor c slot 4096

/-- What the members of a group that resumes take, each with its slot, or the first that cannot go on. -/
abbrev ResumedRecords :=
  Except (Option (CtxRef × Nat × BitVec 8 × BitVec 3 × Nat)) (List (CtxRef × Nat × Saved × RecordBytes × List (BitVec 32)))

/-- The slot a context's program resumes from. -/
def SavePhase.resumes : SavePhase → Option Nat
  | .resuming n => some n
  | _ => Option.none

/-- The members of a group that resume, each with its slot. -/
def State.resumers (s : State) (c : CtxRef) : List (CtxRef × Nat) :=
  (s.groupOf c).filterMap fun r => (s.ctx r).save.resumes.map (fun n => (r, n))

/-- One member's after those of others. Declarations changed since the placement send the group back to be placed with
them (R298). DEDUCED, log 58. -/
def State.resumeAfter (s : State) (q : List (CtxRef × Nat × Saved × RecordBytes × List (BitVec 32))) (c : CtxRef) (slot : Nat)
    (v : Saved) : Except (Option (BitVec 8 × Nat)) (RecordBytes × List (BitVec 32)) × State → ResumedRecords × State
  | (.error none, u) => (.error none, u)
  | (.error (some (code, va)), u) => (.error (some (c, slot, code, 3, va)), u)
  | (.ok (r, t), u) =>
    if !recordOk v r then (.error (some (c, slot, 0xA1, 4, s.slotVa (s.ctx c).prog.part slot)), u)
    else if lrecOf r != (s.ctx c).lrec then
      (.error none, ((u.resumers c).map (·.1)).foldl State.returnProgram u)
    else (.ok (q ++ [(c, slot, v, r, t)]), u)

/-- The reads of one member: a program charged with a cause while it was saved makes none. -/
def State.resumeOne (s : State) (q : List (CtxRef × Nat × Saved × RecordBytes × List (BitVec 32))) (c : CtxRef) (slot : Nat) :
    ResumedRecords × State :=
  match (s.part (s.ctx c).prog.part).savedIn slot with
  | none => (.error none, s)
  | some v => match v.doom with
    | some (code, val) => (.error (some (c, slot, code, 4, val.toNat)), s)
    | none => s.resumeAfter q c slot v (s.resumeReads c slot)

/-- The reads of every member of a group that resumes. -/
def State.resumeAll (s : State) (l : List (CtxRef × Nat)) : ResumedRecords × State :=
  l.foldl (fun x e => match x with
    | (.ok q, s) => s.resumeOne q e.1 e.2
    | x => x) (.ok [], s)

/-- RESUME (R299): a placed saved program, with the members of its group, waits for what it had outstanding, takes its
record back and goes on; a record out of its ranges ends it with 0xA1 (R298). -/
def execResume (die core ctx : Nat) (s : State) : Answer :=
  let c : CtxRef := ⟨die, core, ctx⟩
  let l := if c.ok && (s.ctx c).st == .starting then s.resumers c else []
  if l.isEmpty || !l.all (fun e => s.placeSettled (savedPlace (s.ctx e.1).prog.part e.2)) then .next s
  else match s.resumeAll l with
    | (.error none, s) => .next s
    | (.error (some (r, slot, code, kind, va)), s) => .next ((s.endResume r slot code kind va).serveWaiting (s.partN die))
    | (.ok q, s) =>
      .next ((q.foldl (fun s e => s.restore e.1 e.2.1 e.2.2.1 e.2.2.2.1 e.2.2.2.2) s).serveWaiting (s.partN die))

end Sys2Proof.Machine
end

