-- ==== Sys2Proof/Machine/Walks.lean ====
section
/-!
DEFINITION. Walks that end, the records and answers of faulted entries, misses that retry, and the invalidation of
translations (R249, R252, R289, R296, R357, R381, R383 to R386).
-/
namespace Sys2Proof.Machine

/-! ### Who a requester is (R252, R289, R360) -/

/-- What a record says of a requester: place, engine, unit, half, whether a handler's, SEQ, PROG, PC and ISSUED. -/
structure Origin where
  ctx : CtxRef
  eng : Nat := 0
  unit : Nat
  half : Bool := false
  inHandler : Bool := false
  seq : Nat
  prog : Nat
  pc : Word
  issued : Word
  deriving DecidableEq, Repr

/-- A unit's command of an issuer. -/
def State.originBy (s : State) (b : Issuer) (unit : Nat) : Origin :=
  let x := s.ctx b.ctx
  let t := if b.spare then x.spare.getD x.main else x.main
  { ctx := s.homeOf b.ctx, unit := unit, half := b.spare, inHandler := b.inHandler, seq := x.prog.seq, prog := x.prog.prog,
    pc := b.pc, issued := t.bundles }

/-- A part that reads before it issues, or fetches. -/
def State.originPart (s : State) (p : PartRef) : Origin :=
  match p with
  | .gang d c x sp =>
    let k := s.ctx ⟨d, c, x⟩
    let t := s.thread p
    { ctx := ⟨d, c, x⟩, unit := 0, half := sp, inHandler := t.handler.isSome, seq := k.prog.seq, prog := k.prog.prog,
      pc := t.pc, issued := t.bundles }
  | .ochre d i => match (s.ochre d i).req with
    | some g => s.originBy g.by_ 4
    | none => { ctx := ⟨d, 0, 0⟩, unit := 4, seq := 0, prog := 0, pc := 0, issued := 0 }

/-- A requester without a bundle. -/
def plainOrigin (die unit seq : Nat) : Origin :=
  { ctx := ⟨die, 0, 0⟩, unit := unit, seq := seq, prog := 0, pc := 0, issued := 0 }

/-- Where a requester on a die's table comes from, with the address it asked for. DEDUCED, log 68. -/
def State.origin (s : State) (die va : Nat) : Requester → Origin
  | .access id => match s.acc id with
    | some a => { s.originBy a.by_ (match a.who with | .gang _ _ _ _ => 0 | .ochre _ _ => 4) with
        eng := ((a.pieces.find? (fun p => p.va = va && !p.helper)).map (·.eng)).getD 0 }
    | none => plainOrigin die 0 0
  | .fetch p | .loops p => s.originPart p
  | .starting c => s.originPart (.gang c.die c.core c.ctx false)
  | .saving c => { s.originPart (.gang c.die c.core c.ctx false) with pc := 0 }
  | .mordant d c id => match (s.core d c).morq.find? (fun m => m.id = id) with
    | some m => s.originBy m.by_ 2
    | none => plainOrigin die 2 0
  | .stream d c id => match (s.core d c).copies.find? (fun m => m.id = id) with
    | some m => s.originBy m.by_ 3
    | none => plainOrigin die 3 0
  | .ring d c id =>
    let k := s.core d c
    let waiting := k.strq.filterMap (fun i => match i with | .ring r => some r | .copy _ => none)
    match (k.rings ++ waiting).find? (fun r => r.id = id) with
    | some r => s.originBy r.by_ 3
    | none => plainOrigin die 3 0
  | .coll inst mem => match (s.colls.find? (fun i => i.id = inst)).bind (fun i => i.members.find? (fun m => m.id = mem)) with
    | some m => s.originBy m.by_ 5
    | none => plainOrigin die 5 0
  | .queue _ _ => plainOrigin die 7 0
  | .parked part id => match (s.part part).parked.find? (fun p => p.num = id) with
    | some (.compl _ _ seq _ _ _) => plainOrigin die 7 seq
    | some (.batch _ d bin b) => plainOrigin die 8 ((((s.bin d bin).batch b).bind (·.seq)).getD 0)
    | none => plainOrigin die 8 0
  | .ochre d i => match (s.die d).gq.head?, (s.ochre d i).req with
    | _, some g => s.originBy g.by_ 4
    | some g, none => s.originBy g.by_ 4
    | none, none => plainOrigin die 4 0

/-- Bit of an access kind in KINDS (R384). -/
def AccessKind.bit : AccessKind → Nat
  | .read => 1
  | .write => 2
  | .atomic => 4
  | .fetch => 8

/-- The record of a faulted entry (R384): of the first requester that fails. -/
def State.walkRecord (s : State) (die entry : Nat) (e : MergeEntry) (code : BitVec 8) (w : MergeWaiter) : FaultRecord :=
  let o := s.origin die w.va w.who
  let kinds := e.list.foldl (fun (k : BitVec 4) v => k ||| BitVec.ofNat 4 v.kind.bit) 0
  { s.blankRecord code (if w.kind == .fetch then 1 else 3) (srcBits o.ctx.die o.ctx.core o.ctx.ctx o.eng o.unit) with
    flags := 1 + (if o.half then 4 else 0) + (if o.inHandler then 8 else 0), seq := BitVec.ofNat 32 o.seq, prog := BitVec.ofNat 32 o.prog, pc := o.pc, val := BitVec.ofNat 64 w.va,
    val2 := BitVec.ofNat 64 (kinds.toNat * 2 ^ 32 + die * 2 ^ 24 + entry * 2 ^ 16 + e.use.toNat), issued := o.issued }

/-! ### Requesters that pass -/

/-- A requester whose page is held now: an access looks its pieces up again, a parked store is tried again; every other
one reads again by its own step. -/
def State.wake (s : State) : Requester → State
  | .access id => match s.acc id with
    | some a => s.touchAll a
    | none => s
  | .parked part _ => (s.settleCompl part).settleBatches part
  | _ => s

/-! ### Requesters that fail (R357, R379, R381, R386) -/

/-- A part's fetch or read before issue fails: kind 1 for a fetch, else kind 3; a SLOTWAIT's wait ends. It is taken at
once where the part could issue, else held (R354). -/
def State.failPart (s : State) (p : PartRef) (kind : BitVec 3) (code : BitVec 8) (va : Nat) : State :=
  match p with
  | .ochre d i =>
    let t := s.thread p
    if (s.ochre d i).req.isSome then s.enterTrap (.ochre d i) (t.cause s code kind (BitVec.ofNat 64 va)) t.pc else s
  | .gang d c x sp =>
    let k := s.ctx ⟨d, c, x⟩
    if k.st == .empty || k.st == .draining || (sp && k.spare.isNone) then s
    else
      let t := s.thread p
      let t := { t with waits := dropSlotwait t.waits }
      let q := t.cause s code kind (BitVec.ofNat 64 va)
      let s := s.setThread p t
      if t.handler.isSome || (t.takes && t.causes.isEmpty && !s.pageWait ⟨d, c, x⟩) then s.enterTrap p q t.pc
      else s.holdCause p q

/-- An access with its pieces of a region failed; one that only waits to write what it has read fails whole. -/
def Access.failRegion (a : Access) (region : Nat) (code : BitVec 8) (va : Nat) : Access :=
  if a.isOpen then
    { a with pieces := a.pieces.map (fun p =>
        if p.isOpen && p.va / 65536 = region && p.pa.isNone then { p with st := .failed code } else p) }
  else { a with pieces := a.pieces.map (fun p => { p with st := .failed code, va := va }) }

/-- An access's pieces of a region fail; it completes when none is left and its turn has come (R357). -/
def State.failAccess (s : State) (id region : Nat) (code : BitVec 8) (va : Nat) : State :=
  match s.acc id with
  | none => s
  | some a =>
    let b := a.failRegion region code va
    let s := s.setAcc b
    if b.isOpen then s else s.finishFailed b

/-- The gather request at the head of a die's queue, whose record cannot be read, ends with its cause (R381). -/
def State.failRequest (s : State) (die : Nat) (code : BitVec 8) : State :=
  match (s.die die).gq, (List.range 16).find? (fun i => (s.ochre die i).req.isNone) with
  | g :: rest, some i =>
    (s.setDie die { s.die die with gq := rest }).setOchre die i
      { Ochre.zero with req := some g, done := true, fail := some code }
  | _, _ => s

/-- One requester fails with a code at an address of a region. -/
def State.failWaiter (s : State) (region : Nat) (w : MergeWaiter) (code : BitVec 8) : State :=
  let f : UnitFault := { code := code, val := BitVec.ofNat 64 w.va, eng := 0 }
  match w.who with
  | .access id => s.failAccess id region code w.va
  | .fetch p => s.failPart p (fetchKind code) code w.va
  | .loops p => s.failPart p 3 code w.va
  | .starting c =>
    if (s.ctx c).st != .starting then s
    else (match (s.ctx c).save with
      | .resuming n => (s.endResume c n code 3 w.va).serveWaiting (s.partN c.die)
      | _ => if w.kind == .fetch then s.failFirst c code w.va else s.failStart c code w.va)
  | .saving c => (match (s.ctx c).save with
    | .holding _ _ => s.failSave c code w.va
    | _ => s)
  | .mordant d c id => (match (s.core d c).morq.find? (fun m => m.id = id) with
    | some m => s.endMordant d c m m.flags (some f)
    | none => s)
  | .stream d c id =>
    let k := s.core d c
    s.setCore d c { k with copies := k.copies.map (fun m => if m.id = id then { m with bad := nset m.bad (region * 2 + (if w.kind == .write then 1 else 0)) code } else m) }
  | .ring d c id =>
    let k := s.core d c
    let waiting := k.strq.filterMap (fun i => match i with | .ring r => some r | .copy _ => none)
    (match (k.rings ++ waiting).find? (fun r => r.id = id) with
      | some r => s.endRing d c r (some f)
      | none => s)
  | .coll inst mem => s.failColl inst mem code w.va
  | .queue part q =>
    let x := (s.part part).queue q
    let va := x.base.toNat * 64 + 64 * (x.rp.toNat % 2 ^ x.log2.toNat)
    let at_ : Word := BitVec.ofNat 64 va
    if x.rp = x.wp then s
    else if w.va = va then (s.passRecord part q).refuseLaunch part 7 at_ 9
    else (match s.fetchFor (s.firstDie part) part va 64 w.who with
      | (.bytes l, s) =>
        let r := recordOf l
        (s.passRecord part q).failLaunch part q at_ r ((s.launchCheck part l r none).getD 3)
      | (_, s) => s)
  | .parked part id => (match (s.part part).parked.find? (fun p => p.num = id) with
    | some (.batch _ die bin b) =>
      let buf := ((s.bin die bin).batch b).elim 0 (·.buf)
      let drop (s : State) : State := (s.unpark part id).freeBatch die bin b
      (if w.kind != .read then drop s
        else if w.va = buf.toNat then (drop s).refuseLaunch part 8 buf 9
        else match s.fetchFor die part buf.toNat 64 w.who with
          | (.bytes l, s) =>
            (drop s).refuseLaunch part 8 buf ((s.launchCheck part (l.take 56 ++ toBytes 8 0)
              (((s.bin die bin).batch b).elim (recordOf l) (fun x => x.record die (recordOf l))) none).getD 3)
          | (_, s) => s).settleBatches part
    | _ => s.unpark part id)
  | .ochre d _ => s.failRequest d code

/-- Whether a requester is an Ochre thread's, whose accesses end at once (R381). -/
def State.onThread (s : State) : Requester → Bool
  | .access id => match s.acc id with
    | some a => (match a.who with | .ochre _ _ => true | .gang _ _ _ _ => false)
    | none => false
  | .fetch (.ochre _ _) | .loops (.ochre _ _) | .ochre _ _ => true
  | _ => false

/-! ### Walks (R252, R383) -/

/-- What a walk gives one requester: no cause when it passes. -/
def walkCode (r : Except (BitVec 8) TlbEntry) (k : AccessKind) : Option (BitVec 8) :=
  match r with
  | .error c => some c
  | .ok t => lacks k t.leaf

/-- Contexts that a list freezes. -/
def State.frozenBy (s : State) (l : List MergeWaiter) : List CtxRef :=
  dedup ((l.filter (fun w => !w.helper)).filterMap (fun w => s.freezes w.who))

/-- Contexts that wait for nothing on a faulted region any more go on; one that stays BLOCKED meets the request it has held
(R292, R294). -/
def State.unfreeze (s : State) (l : List CtxRef) : State := l.foldl (fun s c => (s.unblock c s.cycle).serveNow c) s

/-- The walk of an entry ended: those that pass leave the list and retry, helpers' elements that fail end, and while one
real requester fails the entry stands faulted with its record, its contexts frozen; an Ochre thread's access ends at
once and leaves the list (R381, R386). -/
def State.walkEntry (s : State) (die k : Nat) (e : MergeEntry) : State :=
  let r := s.walk e.part (e.region * 65536)
  let s := s.carryAll (s.walkRouters e.part (e.region * 65536))
  let ok (w : MergeWaiter) : Bool := (walkCode r w.kind).isNone
  let pass := e.list.filter ok
  let bad := e.list.filter (fun w => !ok w)
  let real := bad.filter (fun w => !w.helper)
  let d := s.die die
  let d := match r with
    | .ok t => if real.isEmpty || !pass.isEmpty then { d with l2tlb := l2Fill d.l2tlb t } else d
    | .error _ => d
  let code (w : MergeWaiter) : BitVec 8 := (walkCode r w.kind).getD 0
  let threads := real.filter (fun w => s.onThread w.who)
  let s := match real with
    | [] => s.setDie die { d with merge := nerase d.merge k }
    | w :: _ =>
      let x := { e with list := real.filter (fun w => !s.onThread w.who), faulted := true, code := code w }
      let s := s.setDie die { d with merge := nset d.merge k x }
      s.emit e.part (s.walkRecord die k { e with list := real } (code w) w)
  let s := pass.foldl (fun s w => s.wake w.who) s
  let s := (bad.filter (·.helper)).foldl (fun s w => s.failWaiter e.region w (code w)) s
  let s := threads.foldl (fun s w => s.failWaiter e.region w (code w)) s
  (s.frozenBy real).foldl State.makeBlocked s

/-- WALK_COMPLETE (R252, R383). -/
def execWalkComplete (die entry : Nat) (s : State) : Answer :=
  match nget (s.die die).merge entry with
  | some e => if s.walks die e then .next (s.walkEntry die entry e) else .next s
  | none => .next s

/-- MERGE_ENTRY_RETRY (R252): the earliest miss that waits for an entry looks its page up again, joins its region's entry
or takes the lowest free one. -/
def execMergeEntryRetry (die : Nat) (s : State) : Answer :=
  let d := s.die die
  match d.misses with
  | [] => .next s
  | (part, region, w) :: r =>
    let t := s.setDie die { d with misses := r }
    match t.lookupL2 die part w.va w.kind with
    | (.miss, t) =>
      if d.merge.any (fun e => e.2.region = region && e.2.part = part) then .next (t.miss die part w)
      else (match s.freeEntry die with
        | some k => .next (t.takeEntry die part k w)
        | none => .next s)
    | (_, t) => .next (t.wake w.who)

/-! ### Answers (R385, R386) -/

/-- The faulted entry a token names. -/
def State.answered (s : State) (part : Nat) (token : BitVec 32) : Option (Nat × Nat × MergeEntry) :=
  let die := (token.extractLsb' 24 8).toNat
  let k := (token.extractLsb' 16 8).toNat
  if bitOf (s.part part).dies die then
    (match nget (s.die die).merge k with
      | some e => if e.faulted && e.part = part && e.use = token.extractLsb' 0 16 then some (die, k, e) else none
      | none => none)
  else none

/-- FANST.STALE set. -/
def State.stale (s : State) (part : Nat) : State := s.setPart part { s.part part with fanStale := true }

/-- An entry walks again as a new walk, its USE unchanged; contexts that no other faulted region holds go on (R357,
R386). -/
def State.walkAgain (s : State) (die k : Nat) (e : MergeEntry) : State :=
  let frozen := s.frozenBy e.list
  let (n, s) := s.fresh
  let d := s.die die
  (s.setDie die { d with merge := nset d.merge k { e with faulted := false, started := n } }).unfreeze frozen

/-- FAULT_ANSWER_RETRY (R385, R386). -/
def execFaultAnswerRetry (part : Nat) (token : BitVec 32) (s : State) : Answer :=
  if !s.bar0Open part false then .next s
  else match s.answered part token with
  | none => .next (s.stale part)
  | some (die, k, e) => .next (s.walkAgain die k e)

/-- The accesses of one context on a list, with their causes: each loses its pieces of the region, then those with none
left complete, both in issue order (R357). -/
def State.failAccesses (s : State) (region : Nat) (l : List (Access × MergeWaiter × BitVec 8)) : State :=
  let l := sortBy (fun e => e.1.id) l
  let s := l.foldl (fun s e => match s.acc e.1.id with
    | some a => s.setAcc (a.failRegion region e.2.2 e.2.1.va)
    | none => s) s
  l.foldl (fun s e => match s.acc e.1.id with
    | some a => if a.isOpen then s else s.finishFailed a
    | none => s) s

/-- The requesters of a list whose own kind fails a walk, in list order; the accesses of one context at the place of the
first of them (R357, R386). -/
def State.failList (s : State) (region : Nat) (r : Except (BitVec 8) TlbEntry) (l : List MergeWaiter) : State :=
  let bad := l.filterMap fun w => (walkCode r w.kind).map fun c => (w, c)
  let access (w : MergeWaiter) : Option Access := match w.who with
    | .access id => (s.acc id).filter (fun a => a.who.ctx?.isSome)
    | _ => none
  (indexed bad).foldl (fun t e => match access e.2.1 with
    | none => t.failWaiter region e.2.1 e.2.2
    | some a =>
      let mine (f : MergeWaiter × BitVec 8) : Option (Access × MergeWaiter × BitVec 8) :=
        ((access f.1).filter (fun b => b.who.ctx? == a.who.ctx?)).map (fun b => (b, f))
      if ((bad.take e.1).filterMap mine).isEmpty then t.failAccesses region (bad.filterMap mine) else t) s

/-- FAULT_ANSWER_FAIL (R386): each requester that the accompanying walk does not pass fails with its own code, and the
entry is free. -/
def execFaultAnswerFail (part : Nat) (token : BitVec 32) (s : State) : Answer :=
  if !s.bar0Open part false then .next s
  else match s.answered part token with
  | none => .next (s.stale part)
  | some (die, k, e) =>
    let frozen := s.frozenBy e.list
    let r := s.walk part (e.region * 65536)
    let d := s.die die
    let pass := e.list.filter (fun w => (walkCode r w.kind).isNone)
    let d := match r with
      | .ok t => if pass.isEmpty then d else { d with l2tlb := l2Fill d.l2tlb t }
      | .error _ => d
    let s := s.setDie die { d with merge := nerase d.merge k }
    let s := pass.foldl (fun s w => s.wake w.who) s
    .next ((s.failList e.region r e.list).unfreeze frozen)

/-- FANS_IGNORED_WRITE (R385): a reserved ACTION or a reserved bit. -/
def execFansIgnoredWrite (part : Nat) (v : Word) (s : State) : Answer :=
  if s.bar0Open part false && v.extractLsb' 1 31 != 0 then .next (s.stale part) else .next s

/-! ### Invalidation (R249) -/

/-- Whether an invalidation of a scope covers a translation. -/
def Partition.covers (k : Partition) (t : TlbEntry) : Bool :=
  k.tlbScope = 1 || (t.vbase ≤ k.tlbVpn.toNat * 65536 && k.tlbVpn.toNat * 65536 < t.vbase + t.size)

/-- Every covered translation leaves the TLBs of a partition. DEDUCED, log 67. -/
def State.dropCovered (s : State) (part : Nat) : State :=
  let k := s.part part
  let keep (l : List TlbEntry) : List TlbEntry := l.filter (fun t => !k.covers t)
  { s with
    dies := s.dies.map (fun e => if bitOf k.dies e.1 then (e.1, { e.2 with l2tlb := keep e.2.l2tlb }) else e)
    cores := s.cores.map (fun e => if bitOf k.dies (e.1 / 48) then (e.1, { e.2 with tlb := keep e.2.tlb }) else e) }

/-- TLB_INVALIDATE (R249): GO while DONE is 0, or a reserved SCOPE, has no effect. -/
def execTlbInvalidate (part : Nat) (v : Word) (s : State) : Answer :=
  let k := s.part part
  let scope : BitVec 2 := v.extractLsb' 8 2
  let go := bitOf v 10
  if !s.bar0Open part false || 2 ≤ scope.toNat || (go && !k.tlbDone) then .next s
  else
    let s := s.setPart part { k with tlbScope := scope, tlbDone := k.tlbDone && !go }
    .next (if go then s.dropCovered part else s)

/-- Whether an access holds a translation that an invalidation may cover, for a piece not performed at its home: of the
largest page, where only one page is named. -/
def Partition.usesCovered (k : Partition) (a : Access) : Bool :=
  a.pieces.any (fun p => p.isOpen && p.pa.isSome
    && (k.tlbScope = 1 || p.va / 2 ^ 30 = k.tlbVpn.toNat / 2 ^ 14))

/-- Whether a formed collective instance still has to write a destination whose places came from a covered translation. -/
def State.collCovered (s : State) (part : Nat) : Bool :=
  let k := s.part part
  s.colls.any fun i => i.part = part && i.formed && i.members.any fun m => !m.written && m.places.any fun p =>
    k.tlbScope = 1 || p.1 / 2 ^ 30 = k.tlbVpn.toNat / 2 ^ 14

/-- TLB_INVALIDATE_DONE (R249): every access that used a covered translation is performed at system scope; no covered
translation is left. -/
def execTlbInvalidateDone (part : Nat) (s : State) : Answer :=
  let k := s.part part
  if 4 ≤ part || k.tlbDone || !k.flush.isEmpty || s.collCovered part
      || s.accs.any (fun a => s.partN a.who.die = part && k.usesCovered a) then .next s
  else .next ((s.dropCovered part).setPart part { s.part part with tlbDone := true })

end Sys2Proof.Machine
end

