-- ==== Sys2Proof/Machine/Causes.lean ====
section
/-!
DEFINITION. Causes that reach a part's sequencer, errors in a context's arrays, and the fault queue's records and
messages (R346, R353 to R356, R359, R388).
-/
namespace Sys2Proof.Machine

/-- A cause reaches its part (R346, R353 to R356): kind 4 ends the program, one that the running handler's own operation
raised is a double trap, one that cannot be taken now is held, any other is taken. DEDUCED, log 33. -/
def State.deliverCause (s : State) (c : CtxRef) (sp : Bool) (q : Cause) : State :=
  let x := s.ctx c
  let p : PartRef := .gang c.die c.core c.ctx (sp && x.spare.isSome)
  let t := s.thread p
  if q.kind = 4 then (s.endProgram c (sp && x.spare.isSome) q).serveWaiting (s.partN c.die)
  else if t.handler.isSome && q.inHandler && q.gen = t.hgen then s.enterTrap p q t.pc
  else if t.takes && !t.due && !t.arrived && x.st != .blocked && x.save == .none && t.causes.isEmpty then s.enterTrap p q t.pc
  else s.holdCause p q

/-! ### Errors in arrays (R388) -/

/-- A program ends with 0xA2, or where it has ended already only a record is written. -/
def State.arrayEnd (s : State) (c : CtxRef) (val : Word) : State :=
  (s.endLost c 0xA2 val).serveWaiting (s.partN c.die)

/-- The contexts of a core whose allocation holds a byte of an engine's scratchpad. -/
def State.spadOwners (s : State) (die core byte : Nat) : List CtxRef :=
  ((List.range 8).map (fun x => (⟨die, core, x⟩ : CtxRef))).filter fun c =>
    let x := s.ctx c
    x.st != .empty && x.spadBase ≤ byte && byte < x.spadBase + x.spadSize

/-- A list without its element at a position. -/
def dropAt (l : List α) (n : Nat) : List α := l.take n ++ l.drop (n + 1)

/-- A parity error of entry n of the core TLB, the L2 TLB or the merge table, numbered in that order: the entry is
discarded, or its walk begins again; a faulted merge entry is kept. DESIGN CHOICE, log 108. -/
def State.parityError (s : State) (die core n : Nat) : State :=
  let k := s.core die core
  let d := s.die die
  if n < 256 then s.setCore die core { k with tlb := dropAt k.tlb n }
  else if n < 256 + 16384 then s.setDie die { d with l2tlb := dropAt d.l2tlb (n - 256) }
  else match nget d.merge (n - 16640) with
    | none => s
    | some e =>
      if e.faulted then s
      else
        let (m, s) := s.fresh
        s.setDie die { s.die die with merge := nset (s.die die).merge (n - 16640) { e with started := m } }

/-- An uncorrectable error in an array found by a context's read (R388): 0xA2 to the program that owns it, in a scratchpad
to the reader and the owner of the word; a line of an L1 or instruction cache is fetched again and counts as corrected;
in an Ochre core's arrays the request of the context that runs there ends. DEDUCED, log 112. -/
def State.arrayError (s : State) (c : CtxRef) (e : ArrayError) : State :=
  let val : Word := BitVec.ofNat 64 (e.array.toNat * 2 ^ 56 + e.index.toNat)
  let k := s.core c.die c.core
  let n := e.index.toNat
  match e.array.toNat with
  | 1 | 2 | 4 | 5 | 6 => s.arrayEnd c val
  | 3 => ((s.spadOwners c.die e.core (n % 32768 * 8)).filter (· != c)).foldl (fun s r => s.arrayEnd r val) (s.arrayEnd c val)
  | 7 => (s.setCore c.die c.core { k with l1 := dropAt k.l1 (n / 8) }).countCorrected c.die 0 7 n 1
  | 8 => (s.setCore c.die c.core { k with icache := dropAt k.icache (n / 8) }).countCorrected c.die 0 8 n 1
  | 9 => s.parityError c.die c.core n
  | 0x0D =>
    let o := s.ochre c.die e.core
    if o.req.any (fun g => g.by_.ctx = c) && !o.done then
      s.setOchre c.die e.core { o with done := true, fail := some 0xA2 }
    else s
  | _ => s

/-- CAUSE_ARRIVE (R346, R354, R388): the first of a context's causes on their way reaches its part in a later cycle than
the one it arose in. DEDUCED, log 33. -/
def execCauseArrive (die core ctx : Nat) (ext : Option ArrayError) (s : State) : Answer :=
  let c : CtxRef := ⟨die, core, ctx⟩
  let x := s.ctx c
  if !c.ok then .next s
  else match ext with
    | some e => .next (s.arrayError c e)
    | none => match x.inbox with
      | [] => .next s
      | (sp, q) :: r =>
        if x.st == .starting || s.cycle ≤ q.cycle s.readyAt then .next s
        else .next ((s.setCtx c { x with inbox := r }).deliverCause c sp q)

/-! ### The fault queue (R358, R359) -/

/-- The oldest record held goes to the queue unless an earlier cause's has still to come, and one that waits with its source
takes its place (R359). -/
def State.drainRecord (s : State) (part : Nat) : State :=
  let k := s.part part
  match k.holding with
  | r :: h =>
    if s.endsBefore part r then s
    else (s.setPart part { k with
      holding := k.behind.head?.elim h (fun b => holdRecord b h), behind := k.behind.tail }).writeRecord part r
  | [] => s

/-- FAULT_RECORD_DRAIN (R359). -/
def execFaultRecordDrain (part : Nat) (s : State) : Answer :=
  if (s.part part).canRecord then .next (s.drainRecord part) else .next s

/-- FAULT_MSIX (R320, R359): vector 0 for the records written since the last message, 4 µs after it at the earliest. -/
def execFaultMsix (part : Nat) (s : State) : Answer :=
  let k := s.part part
  let early := match k.msixLast with
    | some t => s.time < t + 4 * tickUs
    | none => false
  if !k.msixOwed || early then .next s
  else .next ((s.setPart part { k with msixOwed := false, msixLast := some s.time }).signal part 0)

end Sys2Proof.Machine
end

