-- ==== Sys2Proof/Machine/Fingerprint.lean ====
section
/-!
DEFINITION. SHAKE128 and SHAKE256, and the configuration fingerprint (R323, R324).
-/
namespace Sys2Proof.Machine

/-! ### SHAKE (R324 and R326 name it by its function; FIPS 202) -/

/-- The 25 lanes of the sponge: lane x + 5y stands at column x of plane y. -/
abbrev Sponge := List (BitVec 64)

/-- A lane by its coordinates, taken modulo 5. -/
def Sponge.lane (a : Sponge) (x y : Nat) : BitVec 64 := at' a (x % 5 + y % 5 * 5) 0

/-- Every lane takes the parity of the column before it and that of the column after it, turned by one. -/
def Sponge.theta (a : Sponge) : Sponge :=
  let parity := (List.range 5).map fun x => a.lane x 0 ^^^ a.lane x 1 ^^^ a.lane x 2 ^^^ a.lane x 3 ^^^ a.lane x 4
  (indexed a).map fun p => p.2 ^^^ at' parity ((p.1 + 4) % 5) 0 ^^^ (at' parity ((p.1 + 1) % 5) 0).rotateLeft 1

/-- The walk over the 24 lanes beside the first: on step t from one place to the next the lane turns by the t-th triangular
number. -/
def Sponge.walk (a : Sponge) : Nat → Nat → Nat → Nat → Sponge → Sponge
  | 0, _, _, _, b => b
  | n + 1, t, x, y, b =>
    let z := (2 * x + 3 * y) % 5
    a.walk n (t + 1) y z (b.set (y + 5 * z) ((a.lane x y).rotateLeft (t * (t + 1) / 2 % 64)))

/-- Every lane takes the next one but one of its plane where the next is clear. -/
def Sponge.chi (a : Sponge) : Sponge :=
  (indexed a).map fun p => p.2 ^^^ (a.lane (p.1 + 2) (p.1 / 5) &&& ~~~(a.lane (p.1 + 1) (p.1 / 5)))

/-- The register that gives the bits of the round constants, a step on. -/
def tapStep (r : BitVec 8) : BitVec 8 := (r <<< 1) ^^^ (if r.msb then 0x71 else 0)

/-- The constant of a round, bits 2^j - 1 from seven steps of the register, and the register after them. -/
def roundConstant (r : BitVec 8) : BitVec 64 × BitVec 8 :=
  (List.range 7).foldl (fun (c : BitVec 64 × BitVec 8) j =>
    (c.1 ||| ((c.2.setWidth 64 &&& 1) <<< (2 ^ j - 1)), tapStep c.2)) (0, r)

/-- Rounds of the permutation. -/
def Sponge.rounds : Nat → BitVec 8 → Sponge → Sponge
  | 0, _, a => a
  | n + 1, r, a =>
    let m := a.theta
    let b := (m.walk 24 1 1 0 m).chi
    let (k, r) := roundConstant r
    Sponge.rounds n r (b.set 0 (b.lane 0 0 ^^^ k))

/-- The permutation. -/
def Sponge.permute (a : Sponge) : Sponge := Sponge.rounds 24 1 a

/-- A block of bytes taken in: the lanes behind it stay. -/
def Sponge.absorb (a : Sponge) (block : List Byte) : Sponge :=
  Sponge.permute ((indexed a).map fun p => p.2 ^^^ BitVec.ofNat 64 (ofBytes ((block.drop (8 * p.1)).take 8)))

/-- Whole blocks of a rate taken in, one after another. -/
def Sponge.absorbAll (rate : Nat) (a : Sponge) : Nat → List Byte → Sponge
  | 0, _ => a
  | n + 1, l => (a.absorb (l.take rate)).absorbAll rate n (l.drop rate)

/-- Some blocks of output. -/
def Sponge.squeeze (rate : Nat) (a : Sponge) : Nat → List Byte
  | 0 => []
  | n + 1 => (a.flatMap (fun v => toBytes 8 v.toNat)).take rate ++ a.permute.squeeze rate n

/-- The first n bytes of the output of a SHAKE function of a rate in bytes: 168 of SHAKE128, 136 of SHAKE256. -/
def shake (rate : Nat) (msg : List Byte) (n : Nat) : List Byte :=
  let blocks := msg.length / rate + 1
  let free := blocks * rate - msg.length
  let pad : List Byte := if free = 1 then [0x9F] else 0x1F :: List.replicate (free - 2) 0 ++ [0x80]
  ((Sponge.absorbAll rate (List.replicate 25 0) blocks (msg ++ pad)).squeeze rate (n / rate + 1)).take n

/-- The first n bytes of the SHAKE256 output of a message. -/
def shake256 (msg : List Byte) (n : Nat) : List Byte := shake 136 msg n

/-! ### The configuration descriptor (R324) -/

/-- The groups a link carries toward a partition as it is formed, of a link that joins it to another. -/
def State.towardPart (s : State) (dies : BitVec 24) (link : Nat) : Option Nat :=
  let (a, b) := linkEnds link
  if 34 ≤ link || bitOf dies a == bitOf dies b then none
  else some (groupsWhere (fun g => bitOf (s.link link).up g == bitOf dies b)).length

/-- The 64 bytes of the descriptor of a set of dies. -/
def State.descriptor (s : State) (dies : BitVec 24) (feat : BitVec 128) : List Byte :=
  let groups := (List.range 34).filterMap (s.towardPart dies)
  toBytes 4 dies.toNat ++ toBytes 4 Config.revCode.toNat ++ toBytes 16 feat.toNat
    ++ toBytes 8 (groups.foldr (fun n v => n % 16 + 16 * v) 0) ++ toBytes 1 s.domSize.toNat ++ List.replicate 31 0

/-- CFGFP of a set of dies: the first eight bytes of the digest. -/
def State.fingerprint (s : State) (dies : BitVec 24) (feat : BitVec 128) : Word :=
  BitVec.ofNat 64 (ofBytes (shake256 (s.descriptor dies feat) 8))

end Sys2Proof.Machine
end

