-- ==== Sys2Proof/Machine/Registers.lean ====
section
/-!
DEFINITION. The registers of BAR0: what reads return, and the writes of the identity, power and management registers and
of those without a behaviour of their own (R249, R277, R278, R297, R318, R323, R327, R332, R358, R385, R407, R410).
-/
namespace Sys2Proof.Machine

/-! ### Reads -/

/-- A flag as a number. -/
def bitN (b : Bool) : Nat := if b then 1 else 0

/-- The identity and feature block (R321, R323): no feature is offered. -/
def State.identityWord (s : State) (k : Partition) : Nat → Word
  | 0x00 => Config.revCode.setWidth 64
  | 0x08 => BitVec.ofNat 64 (s.domModule.toNat + s.domSize.toNat * 2 ^ 8)
  | 0x20 => k.feat.extractLsb' 0 64
  | 0x28 => k.feat.extractLsb' 64 64
  | 0x30 => k.cfgfp
  | _ => 0

/-- A launch queue's registers (R278). -/
def LaunchQueue.word (x : LaunchQueue) : Nat → Word
  | 0x00 => BitVec.ofNat 64 (x.base.toNat * 2 ^ 6)
  | 0x08 => BitVec.ofNat 64 (x.log2.toNat + bitN x.en * 2 ^ 5)
  | 0x10 => x.wp.setWidth 64
  | _ => BitVec.ofNat 64 (x.rp.toNat + bitN x.ovf * 2 ^ 32)

/-- The scheduler block (R277, R278, R292, R297). -/
def Partition.schedulerWord (k : Partition) (off : Nat) : Word :=
  if off < 0x800 then (k.queue (off / 32)).word (off % 32)
  else match off with
    | 0x800 => BitVec.ofNat 64 (k.saveBase.toNat * 2 ^ 24)
    | 0x808 => k.saveCnt.setWidth 64
    | 0x810 => BitVec.ofNat 64 (bitN k.preDone * 2 ^ 62 + bitN k.preAll * 2 ^ 14 + k.preDie.toNat * 2 ^ 9
        + k.preCore.toNat * 2 ^ 3 + k.preCtx.toNat)
    | 0x818 => BitVec.ofNat 64 (k.imgBase.toNat * 2 ^ 6)
    | 0x820 => k.imgCnt.setWidth 64
    | 0x828 => BitVec.ofNat 64 (bitN k.imgDone * 2 ^ 62 + k.imgNum.toNat)
    | _ => 0

/-- The translation block (R249, R260, R385). -/
def Partition.translationWord (k : Partition) (off : Nat) : Word :=
  if 0x40 ≤ off && off < 0xC0 then (ngetD k.bwin ((off - 0x40) / 16) 0).extractLsb' (off / 8 % 2 * 64) 64
  else match off with
    | 0x00 => BitVec.ofNat 64 (bitN k.ptrootV * 2 ^ 63 + k.ptroot.toNat * 2 ^ 12)
    | 0x08 => BitVec.ofNat 64 (k.tlbVpn.toNat * 2 ^ 16)
    | 0x10 => BitVec.ofNat 64 (bitN k.tlbDone * 2 ^ 11 + k.tlbScope.toNat * 2 ^ 8)
    | 0x20 => BitVec.ofNat 64 (bitN k.fanStale)
    | _ => 0

/-- The fault queue block (R358). -/
def Partition.faultWord (k : Partition) : Nat → Word
  | 0x00 => BitVec.ofNat 64 (k.fqBase.toNat * 2 ^ 6)
  | 0x08 => BitVec.ofNat 64 (k.fqLog2.toNat + bitN k.fqEn * 2 ^ 5)
  | 0x10 => k.fqWp.setWidth 64
  | 0x18 => k.fqRp.setWidth 64
  | 0x20 => BitVec.ofNat 64 k.holding.length
  | _ => 0

/-- The MSI-X table of 64 entries, and the pending bits behind it (R317, R318; the layout of PCI Express, log 8). -/
def Partition.msixWord (k : Partition) (off : Nat) : Word :=
  if off < 0x400 then
    let e := k.vector (off / 16)
    if off % 16 = 0 then e.addr else BitVec.ofNat 64 (e.data.toNat + bitN e.mask * 2 ^ 32)
  else if off = 0x400 then maskOf ((List.range 64).filter (fun v => (k.vector v).pending))
  else 0

/-- PWRSTAT.GATE: the lowest gate of a partition's dies. -/
def State.lowGate (s : State) (k : Partition) : Nat := (bitsOf k.dies).foldl (fun n d => min n (s.die d).gate) 255

/-- STATE of a die (R407). -/
def DieStatus.code : DieStatus → Nat
  | .running => 0
  | .contained => 1
  | .readmitting => 2
  | .held => 3

/-- DIESTAT (R407). -/
def State.dieStat (s : State) : Word :=
  BitVec.ofNat 64 ((List.range 24).foldl (fun n d => n + (s.die d).status.code * 2 ^ (2 * d)) 0)

/-- The management block (R332, R407, R410). -/
def State.managementWord (s : State) (k : Partition) : Nat → Word
  | 0x00 => BitVec.ofNat 64 (s.failcode.toNat * 2 ^ 8 + bitN s.fwok * 2 ^ 7 + s.stage)
  | 0x08 => BitVec.ofNat 64 (bitN k.capEn * 2 ^ 16 + k.cap.toNat)
  | 0x10 => BitVec.ofNat 64 (s.lowGate k * 2 ^ 48 + k.pwrCause.toNat * 2 ^ 40 + k.tmax.toNat * 2 ^ 32
      + k.hbmW.toNat * 2 ^ 16 + k.dieW.toNat)
  | 0x18 => BitVec.ofNat 64 (s.flow.toNat * 2 ^ 24 + s.tout.toNat * 2 ^ 8 + s.tin.toNat)
  | 0x20 => s.dieStat
  | 0x28 => k.hold.setWidth 64
  | 0x30 => BitVec.ofNat 64 (bitN k.attRun.isNone * 2 ^ 62 + k.attAddr.toNat * 2 ^ 14)
  | _ => 0

/-- The doubleword of BAR0 at an aligned offset (R318) of a function that is presented (R29): before Ready, zero outside the
management block (R327). -/
def State.bar0Word (s : State) (part off : Nat) : Word :=
  let k := s.part part
  if !s.presents part then 0
  else if 0x1000000 ≤ off then s.managementWord k (off - 0x1000000)
  else if s.stage != 5 || !k.formed then 0
  else if off < 0x100000 then s.identityWord k off
  else if off < 0x200000 then k.schedulerWord (off - 0x100000)
  else if off < 0x300000 then k.translationWord (off - 0x200000)
  else if off < 0x400000 then k.faultWord (off - 0x300000)
  else k.msixWord (off - 0x400000)

/-- The n bytes a read of BAR0 returns: zeros unless it is four or eight bytes, naturally aligned (R318). -/
def State.bar0Read (s : State) (part off n : Nat) : List Byte :=
  if (n = 4 || n = 8) && off % n = 0 && off < 2 ^ 26 then
    toBytes n ((s.bar0Word part (off / 8 * 8)).toNat >>> (8 * (off % 8)))
  else toBytes n 0

/-! ### Features and power (R323, R324, R332) -/

/-- FEATACK_WRITE (R323, R324): ignored while a launch queue is enabled or a context is not EMPTY; no feature is
offered, so none is accepted. -/
def execFeatackWrite (part : Nat) (hi : Bool) (v : Word) (s : State) : Answer :=
  let k := s.part part
  let cap : Word := 0
  if !s.bar0Open part false || (List.range 64).any (fun q => (k.queue q).en)
      || (s.ctxsOf part).any (fun c => (s.ctx c).st != .empty) then .next s
  else
    let w := (v &&& cap).setWidth 128
    let feat := if hi then (k.feat.extractLsb' 0 64).setWidth 128 ||| (w <<< 64)
      else (k.feat &&& ~~~((BitVec.allOnes 64).setWidth 128)) ||| w
    .next (s.setPart part { k with feat := feat, cfgfp := s.fingerprint k.dies feat })

/-- PWRCAP_WRITE (R332): CAP is held within 160 W and 640 W a die; it acts from the next interval on. Before the partition is
formed it has no effect. DESIGN CHOICE, log 126. -/
def execPwrcapWrite (part : Nat) (v : Word) (s : State) : Answer :=
  let k := s.part part
  let n := (bitsOf k.dies).length
  let cap := BitVec.ofNat 16 (max (160 * n) (min (640 * n) (v.extractLsb' 0 16).toNat))
  if !s.bar0Open part true || !k.formed then .next s
  else .next (s.setPart part { k with capEn := bitOf v 16, cap := cap })

/-! ### Registers without a behaviour of their own -/

/-- A vector unmasked sends what it owes (R320). -/
def State.sendPending (s : State) (part v : Nat) : State :=
  let k := s.part part
  let e := k.vector v
  if e.pending && !e.mask && k.pcieUp && !k.d3 && k.msixOn then
    (s.setPart part { k with msix := nset k.msix v { e with pending := false } }).signal part v
  else s

/-- An MSI-X table entry's half written. -/
def State.writeMsix (s : State) (part off : Nat) (v : Word) : State :=
  let k := s.part part
  let n := off / 16
  let e := k.vector n
  let e := if off % 16 = 0 then { e with addr := v } else { e with data := v.extractLsb' 0 32, mask := bitOf v 32 }
  (s.setPart part { k with msix := nset k.msix n e }).sendPending part n

/-- LQRP's OVF cleared by a 0 (R278). -/
def State.clearOvf (s : State) (part q : Nat) (v : Word) : State :=
  let x := (s.part part).queue q
  s.setQueue part q { x with ovf := x.ovf && bitOf v 32 }

/-- Whether a function's MSI-X table takes writes: as the other registers do, and in Failed too, where its driver enables
vector 1 (R327). DEDUCED, log 110. -/
def State.msixOpen (s : State) (part : Nat) : Bool := s.bar0Open part (s.stage = 15)

/-- MGMT_REGISTER_WRITE (R318): the RW fields of the register at an offset take the value; FQBASE only while EN is 0
(R358), a RW0C field is cleared by a 0. A larger save area may hold what waits for a slot (R292). -/
def execMgmtRegisterWrite (part off : Nat) (v : Word) (s : State) : Answer :=
  let k := s.part part
  let set (k : Partition) : State := s.setPart part k
  if s.msixOpen part && 0x400000 ≤ off && off < 0x400400 && off % 8 = 0 then .next (s.writeMsix part (off - 0x400000) v)
  else if !s.bar0Open part false then .next s
  else if 0x100000 ≤ off && off < 0x100800 && off % 32 = 0x18 then .next (s.clearOvf part ((off - 0x100000) / 32) v)
  else match off with
    | 0x100800 => .next (set { k with saveBase := v.extractLsb' 24 33 })
    | 0x100808 => .next ((set { k with saveCnt := v.extractLsb' 0 16 }).serveWaiting part)
    | 0x100818 => .next (set { k with imgBase := v.extractLsb' 6 51 })
    | 0x100820 => .next (set { k with imgCnt := v.extractLsb' 0 16 })
    | 0x200000 => .next (set { k with ptrootV := bitOf v 63, ptroot := v.extractLsb' 12 40 })
    | 0x200008 => .next (set { k with tlbVpn := v.extractLsb' 16 41 })
    | 0x200020 => .next (set { k with fanStale := k.fanStale && bitOf v 0 })
    | 0x300000 => .next (if k.fqEn then s else set { k with fqBase := v.extractLsb' 6 46 })
    | _ => .next s

/-! ### Attestation (R410) -/

/-- ATTCTL_GO (R410): GO while a report is in progress has no effect. -/
def execAttctlGo (part : Nat) (v : Word) (s : State) : Answer :=
  let k := s.part part
  let addr : BitVec 38 := v.extractLsb' 14 38
  let go := bitOf v 63
  if !s.bar0Open part true || (go && k.attRun.isSome) then .next s
  else .next (s.setPart part { k with attAddr := addr, attRun := if go then some addr else k.attRun })

/-- A report's first 1,920 bytes. -/
def State.reportHead (s : State) (part : Nat) (nonce : List Byte) : List Byte :=
  nonce ++ toBytes 8 Config.revCode.toNat ++ toBytes 8 (s.part part).cfgfp.toNat ++ toBytes 8 s.dieStat.toNat
    ++ List.replicate 8 0 ++ (List.range 29).flatMap (fun n => toBytes 64 (Config.firmwareDigest n).toNat)

/-- The 16 KiB of a report. -/
def State.report (s : State) (part : Nat) (nonce : List Byte) : List Byte :=
  let head := s.reportHead part nonce
  let key := toBytes 1952 Config.identityKey.toNat
  (head ++ toBytes 3309 (Config.identitySignature head).toNat ++ List.replicate 19 0 ++ key
    ++ toBytes 3309 Config.vendorSignature.toNat ++ List.replicate 16384 0).take 16384

/-- Bytes written to memory sector by sector. -/
def State.writeSectors (s : State) (tag : OwnerTag) (pa : Nat) : Nat → List Byte → State
  | 0, _ => s
  | n + 1, l =>
    if l.isEmpty then s
    else
      let m := 64 - pa % 64
      (s.homeWrite pa (l.take m) tag).writeSectors tag (pa + m) n (l.drop m)

/-- ATTEST_DONE (R410): the report stands in the buffer behind its nonce and DONE is 1. A buffer outside what the
partition may reach takes nothing; one in host memory waits for its link. DEDUCED, log 80. -/
def execAttestDone (part : Nat) (s : State) : Answer :=
  let k := s.part part
  match k.attRun with
  | none => .next s
  | some a =>
    let pa := s.fold (a.toNat * 16384)
    let done (s : State) : State := s.setPart part { s.part part with attRun := none }
    if (s.refusal part 0 pa 16384 pa).isSome then .next (done s)
    else if (s.cutOff part pa).isSome then .next s
    else
      .next (done (s.writeSectors (unitTag part 0 11) (pa + 32) 256 ((s.report part (s.mem.read pa 32)).drop 32)))

end Sys2Proof.Machine
end

