-- ==== Sys2Proof/Machine/Host.lean ====
section
/-!
DEFINITION. The I/O dies: what the host and other modules ask of this module's memory, flush reads, the host link and
Airufold routes given up (R258, R273, R274, R317 to R321, R327, R391 to R393, R408, R409).
-/
namespace Sys2Proof

/-- The atomic a request asks for: address, size, and the new value of the old one. -/
def HostRequest.atomic : HostRequest → Option (Nat × Nat × (List Byte → List Byte))
  | .fetchAdd a n v => some (a, n, fun old => Machine.amoValue 0 n old (Machine.toBytes n v.toNat) 0)
  | .swap a n v => some (a, n, fun old => Machine.amoValue 9 n old (Machine.toBytes n v.toNat) 0)
  | .cas a n c v => some (a, n, fun old => Machine.amoValue 10 n old (Machine.toBytes n v.toNat) c)
  | .amo op a n v c => some (a, n, fun old => Machine.amoValue op n old (Machine.toBytes n v.toNat) c)
  | .vatom op f a v =>
    let n := Machine.fmtWidth f / 8
    some (a, n, fun old => Machine.vatomValue op f old (Machine.toBytes n v.toNat))
  | _ => none

/-- The address of a request. -/
def HostRequest.addr : HostRequest → Nat
  | .read a _ | .write a _ | .fetchAdd a _ _ | .swap a _ _ | .cas a _ _ _ | .amo _ a _ _ _ | .vatom _ _ a _ => a
  | .config _ | .configWrite _ _ | .power _ | .msix _ => 0

/-- Requests the host can send (R317, R327): reads, the three AtomicOps and configuration requests. -/
def HostRequest.fromHost : HostRequest → Bool
  | .read _ n => 1 ≤ n && n ≤ 4096
  | .fetchAdd _ _ _ | .swap _ _ _ | .cas _ _ _ _ | .config _ | .configWrite _ _ | .power _ | .msix _ => true
  | _ => false

end Sys2Proof

namespace Sys2Proof.Machine

/-! ### Requests at the home slice (R258, R319, R321) -/

/-- Whether an outside agent's access to an offset of this module's HBM reaches a die (R319). -/
def State.reaches (s : State) (part : Nat) (off : Nat) : Bool :=
  s.stage = 5 && off < 2 ^ 42 && paDie off < 24 && bitOf (s.part part).dies (paDie off) && s.hostUp part

/-- Owner tag of a write from outside (R393). -/
def outsideTag (part : Nat) : OwnerTag :=
  { part := part, src := srcBits 0 0 0 0 9, ctx := none, seq := 0, prog := 0 }

/-- Whether a run of bytes touches a line that reads as poisoned. -/
def State.anyPoison (s : State) (a n : Nat) : Bool :=
  (List.range ((a + n + 63) / 64 - a / 64)).any (fun i => s.poisoned ((a / 64 + i) * 64))

/-- A request of an outside agent performed at the home slice: its answer's bytes, none for one that is aborted, and
whether they are poisoned (R319, R392). DEDUCED, log 81. DESIGN CHOICE, log 88. -/
def State.serveOutside (s : State) (part : Nat) (ok : Nat → Bool) (r : HostRequest) :
    (Option (List Byte) × Bool) × State :=
  match r with
  | .read a n =>
    if ok a && ok (a + n - 1) then ((some (s.mem.read a n), s.anyPoison a n), s.carryAll (homeRouters a n)) else ((none, false), s)
  | .write a l =>
    if ok a && ok (a + l.length - 1) then ((some [], false), s.writeSectors (outsideTag part) a (l.length / 64 + 2) l)
    else ((none, false), s)
  | r =>
    match r.atomic with
    | some (a, n, f) =>
      if !ok a || !(n = 4 || n = 8) || a % n != 0 then ((none, false), s)
      else
        let old := s.mem.read a n
        if s.poisoned a then ((some old, true), s)
        else ((some old, false), s.homeWrite a (f old) (outsideTag part))
    | none => ((none, false), s)

/-! ### The host (R273, R319) -/

/-- An answer goes back to the host. -/
def State.reply (s : State) (part : Nat) (x : Option (List Byte) × Bool) : State :=
  s.setPart part { s.part part with replies := (s.part part).replies ++ [x] }

/-- The vectors that owe a message send it. -/
def State.resumeVectors (s : State) (part : Nat) : State := (List.range 64).foldl (fun s v => s.sendPending part v) s

/-- A non-posted request goes on past the I/O die: a read of BAR0, at 2^42 and above, is answered there, a configuration
request at once whatever the stage (R327); in D3hot a memory request is not supported (R317). DESIGN CHOICE, log 69.
PRESUMED, log 109. -/
def State.forward (s : State) (part : Nat) (r : HostRequest) : State :=
  let k := s.part part
  match r with
  | .config reg => s.reply part (some (toBytes 4 (Config.configWord part reg (nget k.cfg reg)).toNat), false)
  | .configWrite reg v => (s.setPart part { k with cfg := nset k.cfg reg v }).reply part (some [], false)
  | .msix on => ((s.setPart part { k with msixOn := on }).resumeVectors part).reply part (some [], false)
  | .power d3 => ((s.setPart part { k with d3 := d3 }).resumeVectors part).reply part (some [], false)
  | r =>
    if k.d3 then s.reply part (none, false)
    else match r with
      | .read a n =>
        if 2 ^ 42 ≤ a then s.reply part (some (s.bar0Read part (a - 2 ^ 42) n), false)
        else s.setPart part { k with bar2 := k.bar2 ++ [r] }
      | r => s.setPart part { k with bar2 := k.bar2 ++ [r] }

/-- One posted write has gone: every request behind it has one fewer to wait for, and those with none go on. -/
def State.onePosted (s : State) (part : Nat) : State :=
  let k := s.part part
  let l := k.asks.map (fun a => (a.1 - 1, a.2))
  (l.filter (fun a => a.1 = 0)).foldl (fun s a => s.forward part a.2)
    (s.setPart part { k with asks := l.filter (fun a => a.1 != 0) })

/-- The first line of the oldest posted write performed, or discarded where it reaches no die (R273, R319, R391); a request
that was forwarded to the same die before it goes first (R273). -/
def State.performPosted (s : State) (part : Nat) : State :=
  let k := s.part part
  match k.posted with
  | [] => s
  | w :: rest =>
    if k.bar2.any (fun q => paDie q.addr = paDie w.off) then s else
    let n := 64 - w.off % 64
    let l := w.bytes.take n
    let t := if s.reaches part w.off && !l.isEmpty then s.homeWrite w.off l (outsideTag part) else s
    let later := { off := w.off + n, bytes := w.bytes.drop n : HostWrite }
    if later.bytes.isEmpty then (t.setPart part { t.part part with posted := rest }).onePosted part
    else t.setPart part { t.part part with posted := later :: rest }

/-- HOST_POSTED_WRITE (R273, R317): a write of 512 bytes at most arrives at the I/O die, or the oldest one there goes on by a
line. -/
def execHostPostedWrite (part : Nat) (w : Option HostWrite) (s : State) : Answer :=
  let k := s.part part
  if !s.presents part || !k.pcieUp then .next s
  else match w with
    | some w => .next (if k.d3 || 512 < w.bytes.length then s else s.setPart part { k with posted := k.posted ++ [w] })
    | none => .next (s.performPosted part)

/-- HOST_NONPOSTED_REQUEST (R273): it goes on once every posted write before it is acknowledged. -/
def execHostNonpostedRequest (part : Nat) (r : HostRequest) (s : State) : Answer :=
  let k := s.part part
  if !s.presents part || !k.pcieUp || !r.fromHost then .next s
  else if k.posted.isEmpty then .next (s.forward part r)
  else .next (s.setPart part { k with asks := k.asks ++ [(k.posted.length, r)] })

/-- BAR2_ACCESS (R273, R319): a forwarded request is performed, none of the same route standing before it. -/
def execBar2Access (part n : Nat) (s : State) : Answer :=
  let k := s.part part
  match k.bar2[n]? with
  | none => .next s
  | some r =>
    if (k.bar2.take n).any (fun q => paDie q.addr = paDie r.addr) then .next s
    else
      let (x, s) := s.serveOutside part (s.reaches part) r
      .next ((s.setPart part { s.part part with bar2 := k.bar2.eraseIdx n }).reply part x)

/-- SYS_RELEASE_FLUSH_READ (R274): the zero-length read's completion returns: every write to host memory before it is
acknowledged. DEDUCED, log 70. -/
def execSysReleaseFlushRead (part : Nat) (s : State) : Answer :=
  let k := s.part part
  if k.pcieUp then .next ((s.setPart part { k with flush := [] }).settleCompl part) else .next s

/-! ### The host link (R327, R408) -/

/-- Open accesses of a partition to host memory fail (R408). -/
def State.failHost (s : State) (part : Nat) : State :=
  (s.accs.map (·.id)).foldl (fun s id => match s.acc id with
    | some a =>
      if s.partN a.who.die = part && a.pieces.any (fun p => p.isOpen && p.pa.elim false (paSpace · = 2)) then
        s.failPieces a (fun p => p.pa.elim false (paSpace · = 2)) 0x4B
      else s
    | none => s) s

/-- PCIE_LINK_DOWN (R408): a record, inbound requests lost, outstanding accesses to host memory failed. -/
def execPcieLinkDown (part : Nat) (s : State) : Answer :=
  let k := s.part part
  if !k.pcieUp then .next s
  else
    let s := s.setPart part { k with pcieUp := false, posted := [], asks := [], bar2 := [] }
    let s := if k.formed then s.emit part (s.blankRecord 0xA7 0 (srcBits ((s.functionDie part).getD 0) 0 0 0 9)) else s
    .next ((s.failHost part).settleCompl part)

/-- Records held go to the queue while it can take them. -/
def State.drainAll (s : State) (part : Nat) : Nat → State
  | 0 => s
  | n + 1 =>
    if (s.part part).canRecord && !(s.part part).holding.isEmpty then (s.drainRecord part).drainAll part n else s

/-- PCIE_LINK_TRAINED (R29, R327, R408): the port of a partition's function trains; host accesses go on, held records drain and messages resume. -/
def execPcieLinkTrained (part : Nat) (s : State) : Answer :=
  let k := s.part part
  if !s.presents part || k.pcieUp then .next s
  else
    let s := s.setPart part { k with pcieUp := true, d3 := false }
    .next (((s.drainAll part 64).resumeVectors part).settleCompl part)

/-! ### Airufold (R321, R409) -/

/-- AIRUFOLD_INBOUND_REQUEST (R321): another module's request to this module's HBM, performed at its home slice. -/
def execAirufoldInboundRequest (r : HostRequest) (s : State) : Answer :=
  let part := s.partN (paDie r.addr)
  let way : Bool := (List.range 32).any fun p => s.portIn part p && (s.portRetired p).isNone
  let ok (a : Nat) : Bool := s.stage = 5 && a < 2 ^ 42 && (s.partOf (paDie a)).isSome && way
  let (x, s) := s.serveOutside part ok r
  .next { s with responses := s.responses ++ [x] }

/-- Whether a piece of an access still waits on a retired port (R409). -/
def State.onPort (s : State) (port : Nat) (a : Access) (p : Piece) : Bool :=
  p.isOpen && p.pa.elim false (fun pa => paSpace pa = 1 && s.portBefore port a.who.die (paModule pa) = some port)

/-- AIRUFOLD_ROUTE_GIVE_UP (R409): a millisecond after a port retired, an access sent on it before fails. -/
def execAirufoldRouteGiveUp (port acc : Nat) (s : State) : Answer :=
  match s.portRetired port, s.acc acc with
  | some at_, some a =>
    if at_ + 1000 * tickUs ≤ s.time && a.since < at_ && a.pieces.any (s.onPort port a) then
      .next (s.failPieces a (s.onPort port a) 0x4C)
    else .next s
  | _, _ => .next s

end Sys2Proof.Machine
end

