-- ==== Sys2Proof/Machine/Recovery.lean ====
section
/-!
DEFINITION. Errors in memory, dies contained, watched, held and re-admitted (R388 to R394, R402 to R407, R411).
-/
namespace Sys2Proof.Machine

/-! ### Memory errors (R388 to R390) -/

/-- The kind of the causes that the memory side and firmware report of a die (R361). -/
def dieKind (code : BitVec 8) : Nat :=
  if code = 0x49 then 3 else if code = 0x4A || code = 0xA8 || (0xA1 ≤ code && code ≤ 0xA5) then 4 else 0

/-- A record of the memory controller or of firmware about a die (R360). -/
def State.dieRecord (s : State) (code : BitVec 8) (die unit : Nat) (val : Word) : State :=
  match s.partOf die with
  | some p => s.emit p { s.blankRecord code (dieKind code) (srcBits die 0 0 0 unit) with val := val }
  | none => s

/-- An uncorrectable error in a die's L2 copy of a line (R389): one that matches HBM, and a shared copy, is read again and
counts as corrected, a shared copy not where the home's line is poisoned; a dirty home line becomes poisoned. -/
def State.l2Error (s : State) (die line : Nat) : State :=
  let home := lineDie line
  if !(ngetD (s.die die).l2 (lineSlice line) []).contains line then s
  else if die = home then
    (if (nget s.tags line).isSome then s.poisonLine line else s.countCorrected die 10 0x0A (line % 2 ^ 31) 1)
  else if s.poisoned (64 * line) then s
  else s.countCorrected die 10 0x0A (line % 2 ^ 31) 1

/-- MEMORY_SCRUB (R388, R389): what scrubbing, or a read, finds in a line: a corrected error counts, an HBM line found
uncorrectable is poisoned, and reported where scrubbing found it. -/
def execMemoryScrub (line : Nat) (found : ScrubFinding) (s : State) : Answer :=
  let pa := 64 * line
  let home := paDie pa
  let live (d : Nat) : Bool := d < 24 && (s.partOf d).isSome && (s.die d).status == .running
  if !paLocal pa || paMbz pa != 0 || !live home then .next s
  else match found with
    | .clean => .next s
    | .corrected => .next (s.countCorrected home 10 0x0C (line % 2 ^ 31) 1)
    | .uncorrectable =>
      if s.poisoned pa then .next s
      else .next ((s.poisonLine line).dieRecord 0x49 home 10 (BitVec.ofNat 64 pa))
    | .readUncorrectable => .next (if s.poisoned pa then s else s.poisonLine line)
    | .l2Corrected die => .next (if live die then s.countCorrected die 10 0x0A (line % 2 ^ 31) 1 else s)
    | .l2Uncorrectable die => .next (if live die then s.l2Error die line else s)

/-- The unit that reports an array's corrections: Ochre cores, the memory side of the die, or its cores (R360, R388). -/
def arrayUnit (array : Nat) : Nat := if array = 0x0D then 4 else if 0x0A ≤ array then 10 else 0

/-- CORRECTED_ERROR_RECORD (R390). -/
def execCorrectedErrorRecord (die array index : Nat) (s : State) : Answer :=
  if 24 ≤ die || array = 0 || array = 9 || 0x0D < array then .next s
  else .next (s.countCorrected die (arrayUnit array) array index 1)

/-! ### Errors found on eviction (R393, R394) -/

/-- The context of a partition that holds a program of an owner tag and has not ended. -/
def State.taggedContext (s : State) (t : OwnerTag) : Option CtxRef :=
  if t.ctx.isNone then none
  else (s.ctxsOf t.part).find? (fun c =>
    let x := s.ctx c
    x.st != .empty && x.st != .draining && x.prog.seq = t.seq && x.prog.prog = t.prog
      && (match x.save with | .resuming _ => false | _ => true))

/-- The saved program of an owner tag, or one about to resume. -/
def State.taggedSaved (s : State) (t : OwnerTag) : Option Saved :=
  if t.ctx.isNone then none
  else (s.part t.part).savedProgs.find? (fun v => v.prog.seq = t.seq && v.prog.prog = t.prog)

/-- The home partition's record of a line of a bridge window that another partition's write left poisoned. -/
def State.bridgeRecord (s : State) (t : OwnerTag) (die : Nat) (val : Word) : State :=
  if s.partOf die = some t.part then s else s.dieRecord 0x4A die 10 val

/-- EVICTION_ERROR (R394): a dirty line leaves its home slice for HBM, where it is poisoned, and is charged to its last
writer. DEDUCED, log 86. -/
def execEvictionError (line : Nat) (s : State) : Answer :=
  let pa := 64 * line
  match nget s.tags line with
  | none => .next s
  | some t =>
    let val : Word := BitVec.ofNat 64 pa
    let s := { (s.poisonLine line).leaveL2 (lineDie line) line with tags := nerase s.tags line }
    let ended := (s.taggedContext t).isSome || (s.taggedSaved t).isSome
    let s := s.emit t.part { s.blankRecord 0x4A 4 t.src with
      flags := if ended then 2 else 0, seq := BitVec.ofNat 32 t.seq, prog := BitVec.ofNat 32 t.prog, val := val }
    let s := match s.taggedContext t with
      | some c => s.drainFaulted c
      | none => match s.taggedSaved t with
        | some v => s.doom t.part v.slot 0x4A val
        | none => s
    .next ((s.bridgeRecord t (paDie pa) val).serveWaiting t.part)

/-! ### Containment (R402 to R405) -/

/-- A program on a die ends, or has ended and writes its record (R355); one about to resume gives up its slot. -/
def State.endOn (s : State) (c : CtxRef) (code : BitVec 8) (val : Word) : State :=
  match (s.ctx c).save with
  | .resuming n => s.endResume c n code 4 val.toNat
  | _ => s.endLost c code val

/-- Whether commands of a saved program run on a die. -/
def State.runsOn (s : State) (die : Nat) (place : CtxRef) : Bool :=
  s.accs.any (fun a => a.by_.ctx = place && a.who.die = die)
  || s.cores.any (fun e => e.1 / 48 = die && (e.2.copies.any (fun m => m.by_.ctx = place)
      || e.2.rings.any (fun r => r.by_.ctx = place)
      || e.2.strq.any (fun i => match i with | .copy m => m.by_.ctx = place | .ring r => r.by_.ctx = place)))
  || (s.die die).gq.any (fun g => g.by_.ctx = place)
  || (s.die die).ochre.any (fun o => o.2.req.elim false (fun g => g.by_.ctx = place))
  || s.colls.any (fun i => i.members.any (fun m => m.by_.ctx = place && s.collDie m = die && !m.written))

/-- Saved programs that cannot go on without a die: their slot's home is there, or commands of theirs ran on it
(R403, log 61). -/
def State.doomOn (s : State) (part die : Nat) (code : BitVec 8) : State :=
  (s.part part).savedProgs.foldl (fun (s : State) v =>
    let place := savedPlace part v.slot
    let strand := s.runsOn die place
    if strand || (s.slotHomes part v.slot).contains die then
      let s := s.doom part v.slot code (BitVec.ofNat 64 die)
      if strand then s.setCtx place { s.ctx place with wc := [] } else s
    else s) s

/-- Open collectives with a member on a die are aborted: the members elsewhere fail with 0x88 (R404). -/
def State.abortOn (s : State) (die : Nat) : State :=
  let here (m : CollMember) : Bool := !m.written && s.collDie m = die
  (s.colls.filter (fun i => i.members.any here)).foldl
    (fun (s : State) i => s.abortColl { i with members := i.members.filter (fun m => !here m) } none) s

/-- The sequencers and units of a die stop: nothing that stood on it goes on. DEDUCED, log 85. -/
def State.stopUnits (s : State) (die : Nat) : State :=
  let d := s.die die
  let s := { s with
    accs := s.accs.filter (fun a => a.who.die != die && a.by_.ctx.die != die)
    cmds := s.cmds.filter (fun c => c.who.die != die)
    cores := s.cores.map (fun (e : Nat × Core) => if e.1 / 48 = die then
      (e.1, { e.2 with matq := [], morq := [], strq := [], copies := [], rings := [] }) else e)
    clusters := s.clusters.map (fun (e : Nat × Indigo) => if e.1 / 12 = die then
      (e.1, { e.2 with waiting := [], flying := [] }) else e)
    ctxs := s.ctxs.map (fun (e : Nat × Context) => if e.1 / 384 = die then (e.1, { e.2 with wc := [] }) else e) }
  s.setDie die { d with merge := [], misses := [], gq := [], ochre := [], l2tlb := [] }

/-- A die's links close; the routes over them are lost, of a boundary link those of both partitions (R403). -/
def State.closeLinks (s : State) (die : Nat) : State :=
  ((List.range 38).filter (fun k => endDie k die && !(s.link k).closed)).foldl (fun (s : State) k =>
    let s := s.setLink k { s.link k with closed := true, turning := none, serving := none, queue := [], asked := [] }
    s.loseOver k) s

/-- Every home slice of the other dies clears a die's bit in its directory (R403). -/
def State.clearDirectory (s : State) (die : Nat) : State :=
  { s with dir := (s.dir.map (fun e => (e.1, e.2 &&& ~~~(1#24 <<< die)))).filter (fun e => e.2 != 0) }

/-- Containment (R403 to R405), with the cause its programs end with. -/
def State.contain (s : State) (die : Nat) (code : BitVec 8) : State :=
  match s.partOf die with
  | none => s
  | some part =>
    let s := s.doomOn part die code
    let s := (dieContexts die).foldl (fun (s : State) c => s.endOn c code (BitVec.ofNat 64 die)) s
    let s := (s.abortOn die).stopUnits die
    let s := s.setDie die { s.die die with
      status := if bitOf (s.part part).hold die then .held else .contained, readmitStep := 0 }
    let s := ((s.closeLinks die).clearDirectory die).checkWhole part
    if (s.part part).resetting then s
    else (((s.settleColls part).settleCompl part).settleBatches part).serveWaiting part

/-- Coolant out of limits, as last read (R331). -/
def State.coolantBad (s : State) : Bool := s.gateAt != 0 && (45 < s.tin.toNat || s.flow.toNat < 20)

/-- Whether a die is too hot to run (R331). -/
def State.tooHot (s : State) (die : Nat) : Bool := 110 ≤ (s.die die).junction || s.coolantBad

/-- A die held for temperature: its partition is charged with 0xA8, and so are its programs. DEDUCED, log 76. -/
def State.heatHold (s : State) (die : Nat) : State :=
  (s.dieRecord 0xA8 die 11 (BitVec.ofNat 64 die)).contain die 0xA8

/-- A die's HOLD bit set by firmware: it stays held until the driver clears the bit (R411). -/
def State.holdDie (s : State) (die : Nat) : State :=
  match s.partOf die with
  | some p => s.setPart p { s.part p with hold := (s.part p).hold ||| (1#24 <<< die) }
  | none => s

/-- A die whose measurement differs: a record, and it stays held (R411). -/
def State.mismatch (s : State) (die : Nat) : State := (s.dieRecord 0xA9 die 11 (BitVec.ofNat 64 die)).holdDie die

/-- How long a sequencer or unit may stand (R402). -/
def watchdogTime : Nat := 100000 * tickUs

/-- Whether a unit's command has stood for 100 ms: none of the unit's has made progress since, nor was it issued since. -/
def State.unitLate (s : State) (k : Core) (unit : Nat) (b : Issuer) : Bool :=
  let late (t : Nat) : Bool := t + watchdogTime ≤ s.time
  late (ngetD k.progressAt unit 0) && late b.since

/-- Whether a sequencer of a core has stood for 100 ms while a context could issue on it. -/
def State.sequencerStalled (s : State) (die core q : Nat) : Bool :=
  let k := s.core die core
  let late (t : Nat) : Bool := t + watchdogTime ≤ s.time
  late (ngetD k.progressAt q 0) && (List.range 8).any fun n =>
    let x := s.ctx ⟨die, core, n⟩
    (x.st == .ready || x.st == .issuing) && late (s.readyAt + 80 * x.stamp)
      && (q = 0 || (k.spareOwner = some n && x.spare.any (fun t => !t.held && !t.frozen)))

/-- Whether a core's sequencer or unit has stood for 100 ms with work queued: a context that can issue, a command that
no page holds up, a ring that is due. -/
def State.coreStalled (s : State) (die core : Nat) : Bool :=
  let k := s.core die core
  let paged := (s.die die).merge.any (fun e => e.2.faulted)
  s.sequencerStalled die core 0 || s.sequencerStalled die core 1
  || !paged && ((k.matq.take 1).any (fun m => s.unitLate k 2 m.by_) || (k.morq.take 1).any (fun m => s.unitLate k 3 m.by_)
    || k.copies.any (fun m => s.unitLate k 4 m.by_) || k.rings.any (fun r => s.ringDue die core r && s.unitLate k 5 r.by_)
    || (match k.strq with
      | .copy m :: _ => s.unitLate k 4 m.by_
      | .ring r :: _ => k.rings.length < 8 && s.unitLate k 5 r.by_
      | [] => false))

/-- Whether a die's gather engine, an Ochre core of it or a collective engine has stood for 100 ms with work queued that no
page holds up: a request with an idle core, a thread, a COLL that has not joined, or an instance all of whose members
have. -/
def State.enginesStalled (s : State) (die : Nat) : Bool :=
  let d := s.die die
  let late (t : Nat) : Bool := t + watchdogTime ≤ s.time
  !d.merge.any (fun e => e.2.faulted)
  && ((d.gq.take 1).any (fun g => late g.by_.since) && (List.range 16).any (fun i => (s.ochre die i).req.isNone)
      && (List.range 16).all (fun i => late (s.ochre die i).movedAt)
    || (List.range 16).any (fun i => (s.ochre die i).req.isSome && late (s.ochre die i).movedAt)
    || s.colls.any (fun i => (i.stub || i.full) && late i.movedAt
        && i.members.any (fun m => s.collDie m = die) && i.members.all (fun m => late m.by_.since)))

/-- Whether a die's watchdog has run out. -/
def State.stalled (s : State) (die : Nat) : Bool := (List.range 48).any (s.coreStalled die) || s.enginesStalled die

/-- Whether a die runs in a partition. -/
def State.dieLive (s : State) (die : Nat) : Bool :=
  die < 24 && s.stage = 5 && (s.partOf die).isSome && (s.die die).status == .running && !(s.die die).inReset

/-- DIE_CONTAIN (R402, R403). -/
def execDieContain (die : Nat) (why : ContainCause) (s : State) : Answer :=
  if !s.dieLive die then .next s
  else match why with
    | .directory | .router => .next (s.contain die 0xA3)
    | .watchdog => .next (if s.stalled die then s.contain die 0xA3 else s)
    | .thermal => .next (if s.tooHot die then s.heatHold die else s)
    | .linksLost => .next (if s.cutAway die then s.contain die 0xA3 else s)
    | .measurement => .next ((s.mismatch die).contain die 0xA3)

/-- DIE_WATCHDOG (R402). -/
def execDieWatchdog (die : Nat) (s : State) : Answer :=
  if s.dieLive die && s.stalled die then .next (s.contain die 0xA3) else .next s

/-- DIE_THERMAL_HOLD (R331, R402). -/
def execDieThermalHold (die : Nat) (s : State) : Answer :=
  if s.dieLive die && s.tooHot die then .next (s.heatHold die) else .next s

/-! ### Re-admission (R406, R407, R411) -/

/-- DIECTL_WRITE (R407): bits of other partitions' dies are ignored; a contained die whose bit is set is held; a held
die whose bit is cleared starts at step 1. DEDUCED, log 83. -/
def execDiectlWrite (part : Nat) (v : Word) (s : State) : Answer :=
  let k := s.part part
  let hold : BitVec 24 := v.extractLsb' 0 24 &&& k.dies
  if !s.bar0Open part true then .next s
  else
    let s := s.setPart part { k with hold := hold }
    .next ((bitsOf k.dies).foldl (fun (s : State) d =>
      match (s.die d).status, bitOf k.hold d, bitOf hold d with
      | .contained, _, true => s.setDie d { s.die d with status := .held }
      | .held, true, false => s.setDie d { s.die d with status := .readmitting, readmitStep := 1 }
      | _, _, _ => s) s)

/-- Step 1: the die is reset. Its contexts have drained. -/
def State.resetDie (s : State) (die : Nat) : State :=
  { s with
    cores := s.cores.filter (fun e => e.1 / 48 != die)
    clusters := s.clusters.filter (fun e => e.1 / 12 != die)
    dies := nset s.dies die { (s.die die).atReset with status := .readmitting } }

/-- Step 4: every line of the die's HBM is poisoned, and nothing of it is dirty or shared. -/
def State.poisonDie (s : State) (die : Nat) : State :=
  let away (line : Nat) : Bool := !(line < 2 ^ 36 && paDie (64 * line) = die)
  let s := { s with poison := s.poison.filter away, tags := s.tags.filter (fun e => away e.1), dir := s.dir.filter (fun e => away e.1) }
  s.setDie die { s.die die with poisonAll := true }

/-- Whether the other end of a link stands. -/
def State.endStands (s : State) (die : Nat) : Bool :=
  24 ≤ die || (s.die die).status == .running || ((s.die die).status == .readmitting && (s.die die).readmitStep = 6)

/-- Step 5: the die's links come up at the reset split; a boundary link keeps the split it was formed with (R27). -/
def State.retrainLinks (s : State) (die : Nat) : State :=
  ((List.range 38).filter (fun k => endDie k die)).foldl (fun (s : State) k =>
    let l := s.link k
    let other := if (linkEnds k).1 = die then (linkEnds k).2 else (linkEnds k).1
    if !s.endStands other then s
    else if l.boundary then s.setLink k { l with closed := false, retired := 0, crc := [] }
    else s.setLink k { Link.zero with auto := l.auto, lastTurn := l.lastTurn, lastHigh := l.lastHigh }) s

/-- The cause of a step of re-admission: some system cause of R361. DESIGN CHOICE, log 74. -/
def readmitCause (step : Nat) : BitVec 8 :=
  let c := Config.readmitCause step
  if 0xA0 ≤ c.toNat && c.toNat ≤ 0xAA then c else 0xA9

/-- A step that fails: its record, and the die stays held (R406, R411). -/
def State.failReadmit (s : State) (die step : Nat) : State :=
  let s := if step = 2 then s.mismatch die
    else (s.dieRecord (readmitCause step) die 11 (BitVec.ofNat 64 die)).holdDie die
  s.setDie die { s.die die with status := .held, readmitStep := 0 }

/-- The work of a step done. -/
def State.readmitStep (s : State) (die : Nat) : Nat → State
  | 1 => s.resetDie die
  | 4 => s.poisonDie die
  | 5 => s.retrainLinks die
  | 6 => s.setDie die { s.die die with status := .running, inReset := false }
  | _ => s

/-- DIE_READMIT (R406, R411): one step of the re-admission of a die that is not held; one that is too hot as it would run is
held at once (R331). -/
def execDieReadmit (die : Nat) (stepFailed : Bool) (s : State) : Answer :=
  let d := s.die die
  let step := if d.status == .contained then 1 else d.readmitStep
  let busy := (dieContexts die).any (fun c => (s.ctx c).st != .empty)
  if 24 ≤ die || (s.partOf die).isNone || !(d.status == .contained || d.status == .readmitting) || step = 0
      || (step = 1 && busy) then .next s
  else if stepFailed then .next (s.failReadmit die step)
  else
    let s := s.readmitStep die step
    if step = 6 then
      let s := s.setDie die { s.die die with readmitStep := 0 }
      .next (if s.tooHot die then s.heatHold die else s)
    else .next (s.setDie die { s.die die with status := .readmitting, readmitStep := step + 1 })

end Sys2Proof.Machine
end

