-- ==== Sys2Proof/Machine/Renumber.lean ====
section
/-!
DEFINITION. A partition that goes on under another number (R25, R30): everything that names its number names the new one.
-/
namespace Sys2Proof.Machine

/-- A map with its keys and values under new numbers, keys rising again. -/
def rekey (key : Nat → Nat) (val : α → α) (m : NMap α) : NMap α := m.foldl (fun r e => nset r (key e.1) (val e.2)) []

/-- A place under new numbers of partitions: only a saved program's names one (R296). -/
def CtxRef.under (f : Nat → Nat) (c : CtxRef) : CtxRef := if c.isSaved then savedPlace (f c.savedPart) c.ctx else c

/-- The key of a context likewise. -/
def ctxKeyUnder (f : Nat → Nat) (k : Nat) : Nat :=
  let first := ctxKey 32 0 0
  let span := ctxKey 65536 0 0
  if k < first then k else first + f ((k - first) / span) * span + (k - first) % span

/-- A part, a program, an issuer, a requester, a tag and a window transfer likewise. -/
def partUnder (f : Nat → Nat) : PartRef → PartRef
  | .gang d c x sp => let r := CtxRef.under f ⟨d, c, x⟩; .gang r.die r.core r.ctx sp
  | .ochre d i => .ochre d i
def ProgId.under (f : Nat → Nat) (p : ProgId) : ProgId := { p with part := f p.part }
def Issuer.under (f : Nat → Nat) (b : Issuer) : Issuer := { b with ctx := b.ctx.under f }
def Requester.under (f : Nat → Nat) : Requester → Requester
  | .queue p q => .queue (f p) q
  | .parked p i => .parked (f p) i
  | r => r
def MergeWaiter.under (f : Nat → Nat) (w : MergeWaiter) : MergeWaiter := { w with who := w.who.under f }
def OwnerTag.under (f : Nat → Nat) (t : OwnerTag) : OwnerTag := { t with part := f t.part, ctx := t.ctx.map (·.under f) }
def IndigoTransfer.under (f : Nat → Nat) (t : IndigoTransfer) : IndigoTransfer :=
  { t.owned (partUnder f) with
    writes := t.writes.map fun w =>
      if w.1 < 1024 then w else (savedWindow (f ((w.1 - 1024) / 65536)) ((w.1 - 1024) % 65536), w.2) }

/-- A partition's own registers and lists likewise. -/
def Partition.under (f : Nat → Nat) (k : Partition) : Partition :=
  { k with
    savedProgs := k.savedProgs.map (fun v => { v with prog := v.prog.under f })
    flush := k.flush.map (fun x => (partUnder f x.1, x.2)) }

/-- A die's lists likewise. -/
def Die.under (f : Nat → Nat) (d : Die) : Die :=
  { d with
    merge := d.merge.map (fun e => (e.1, { e.2 with part := f e.2.part, list := e.2.list.map (·.under f) }))
    misses := d.misses.map (fun m => (f m.1, m.2.1, m.2.2.under f)) }

/-- The whole module with its partitions under new numbers. -/
def State.under (s : State) (f : Nat → Nat) : State :=
  let s := s.mapIssuers (Issuer.under f)
  { s with
    parts := rekey f (Partition.under f) s.parts
    ctxs := rekey (ctxKeyUnder f) (fun x => { x with prog := x.prog.under f }) s.ctxs
    dies := s.dies.map (fun e => (e.1, e.2.under f))
    clusters := s.clusters.map (fun e => (e.1, { e.2 with
      waiting := e.2.waiting.map (·.under f), flying := e.2.flying.map (·.under f) }))
    accs := s.accs.map (fun a => { a with who := partUnder f a.who })
    cmds := s.cmds.map (fun c => { c with who := partUnder f c.who })
    colls := s.colls.map (fun i => { i with part := f i.part })
    joins := s.joins.map (fun j => ((f j.1.1, j.1.2), j.2))
    code := s.code.map (fun k => { k with part := f k.part })
    tags := s.tags.map (fun e => (e.1, e.2.under f)) }

end Sys2Proof.Machine
end

