-- ==== Sys2Proof/Machine/Signature.lean ====
section
/-!
DEFINITION. The verification of an ML-DSA-65 signature, which R326 names and FIPS 204 gives. PRESUMED, log 116.
-/
namespace Sys2Proof.Machine

/-! ### Polynomials modulo q and x^256 + 1 -/

/-- The modulus. -/
def dsaQ : Nat := 8380417

/-- A polynomial by its 256 coefficients, each less than q, or its values at the 256 roots. -/
abbrev Poly := List Nat

/-- Coefficientwise. -/
def Poly.map₂ (f : Nat → Nat → Nat) (a b : Poly) : Poly := (a.zip b).map fun p => f p.1 p.2 % dsaQ

def Poly.add (a b : Poly) : Poly := a.map₂ (· + ·) b
def Poly.sub (a b : Poly) : Poly := a.map₂ (fun x y => x + dsaQ - y) b
def Poly.mul (a b : Poly) : Poly := a.map₂ (· * ·) b

/-- A sum of polynomials. -/
def Poly.sum (l : List Poly) : Poly := l.foldl Poly.add (List.replicate 256 0)

/-- A power modulo q, of an exponent of so many bits. -/
def powQ (a : Nat) : Nat → Nat → Nat
  | 0, _ => 1
  | n + 1, e => let h := powQ (a * a % dsaQ) n (e / 2)
                if e % 2 = 1 then a * h % dsaQ else h

/-- The eight bits of a number in the other order. -/
def bitRev8 (i : Nat) : Nat := (List.range 8).foldl (fun r j => r + (i / 2 ^ j % 2) * 2 ^ (7 - j)) 0

/-- The root that value i of a transform is taken at: an odd power of 1753. -/
def dsaRoot (i : Nat) : Nat := powQ 1753 9 (2 * bitRev8 i + 1)

/-- The value of a polynomial at a point. -/
def Poly.at_ (a : Poly) (x : Nat) : Nat := a.foldr (fun c v => (c + x * v) % dsaQ) 0

/-- The transform: the values at the 256 roots. -/
def Poly.ntt (a : Poly) : Poly := (List.range 256).map fun i => a.at_ (dsaRoot i)

/-- The polynomial of given values: coefficient j is the mean of value i times the root of i to the power -j. -/
def Poly.invNtt (v : Poly) : Poly :=
  let back := (List.range 256).map fun i => powQ (dsaRoot i) 9 511
  ((List.range 256).foldl (fun (r : List Nat × List Nat) _ =>
    (r.1 ++ [8347681 * (r.2.foldl (fun n x => (n + x) % dsaQ) 0) % dsaQ], Poly.mul r.2 back)) ([], v)).1

/-! ### Decoding (FIPS 204, 7.1 and 7.2) -/

/-- Fields of so many bits from bytes, the first in the lowest bits. -/
def unpackBits (width n : Nat) (l : List Byte) : List Nat :=
  let v := ofBytes l
  (List.range n).map fun i => v >>> (width * i) % 2 ^ width

/-- Block i of a list, n long. -/
def chunk (l : List α) (n i : Nat) : List α := (l.drop (n * i)).take n

/-- The six hint polynomials as the places of their ones, or none where the 61 bytes are malformed. -/
def hintsOf (y : List Byte) : Option (List (List Nat)) :=
  let b (i : Nat) : Nat := (at' y i 0).toNat
  let ends := (List.range 6).map fun i => b (55 + i)
  let start (i : Nat) : Nat := if i = 0 then 0 else at' ends (i - 1) 0
  let total := at' ends 5 0
  let hint (i : Nat) : List Nat := (upto (start i) (at' ends i 0 - start i)).map b
  let rising (l : List Nat) : Bool := (l.zip (l.drop 1)).all fun p => p.1 < p.2
  if (List.range 6).all (fun i => start i ≤ at' ends i 0 && at' ends i 0 ≤ 55 && rising (hint i))
      && (upto total (55 - total)).all (fun i => b i = 0) then
    some ((List.range 6).map hint)
  else none

/-! ### Sampling (FIPS 204, 7.3) -/

/-- An entry of the public matrix, as values: triples of SHAKE128 output, 23 bits of each, those less than q. -/
def sampleNtt (rho : List Byte) (row col : Nat) : Poly :=
  let out := shake 168 (rho ++ [BitVec.ofNat 8 col, BitVec.ofNat 8 row]) (3 * 320)
  (((List.range 320).map fun i => ofBytes (chunk out 3 i) % 2 ^ 23).filter (· < dsaQ)).take 256

/-- The challenge polynomial of a seed: 49 coefficients of 1 or -1. -/
def sampleBall (seed : List Byte) : Poly :=
  let out := shake 136 seed 272
  let signs := ofBytes (out.take 8)
  ((upto 207 49).foldl (fun (r : Poly × List Byte) i =>
    match r.2.dropWhile (fun b => i < b.toNat) with
    | [] => (r.1, [])
    | b :: rest =>
      let c := r.1.set i (at' r.1 b.toNat 0)
      (c.set b.toNat (if signs / 2 ^ (i - 207) % 2 = 1 then dsaQ - 1 else 1), rest)) (List.replicate 256 0, out.drop 8)).1

/-! ### Verification (FIPS 204, 6.3 and 5.3) -/

/-- The high part of a coefficient, corrected by a hint: 16 classes of 523,776. -/
def useHint (h : Bool) (r : Nat) : Nat :=
  let g := 523776
  let low := r % g
  let high := if g / 2 < low then r / g + 1 else r / g
  let up : Bool := 0 < low && low ≤ g / 2
  let wrap := high = 16
  let r1 := if wrap then 0 else high
  if !h then r1 else if up then (r1 + 1) % 16 else (r1 + 15) % 16

/-- Whether a coefficient of the response is small: its distance from 0 modulo q is less than 2^19 - 196. -/
def dsaSmall (z : Nat) : Bool := z < 524092 || dsaQ - 524092 < z

/-- Whether a public key verifies a signature over a message, with an empty context. PRESUMED, log 116. -/
def mldsaVerify (key msg sig : List Byte) : Bool :=
  match hintsOf (sig.drop 3248) with
  | none => false
  | some hints =>
    let rho := key.take 32
    let t1 := (List.range 6).map fun i => unpackBits 10 256 (chunk (key.drop 32) 320 i)
    let seed := sig.take 48
    let z := (List.range 5).map fun i =>
      (unpackBits 20 256 (chunk (sig.drop 48) 640 i)).map fun v => (524288 + dsaQ - v) % dsaQ
    let mu := shake256 (shake256 key 64 ++ [0, 0] ++ msg) 64
    let c := (sampleBall seed).ntt
    let zs := z.map Poly.ntt
    let w := (indexed t1).map fun t =>
      let az := Poly.sum ((indexed zs).map fun p => (sampleNtt rho t.1 p.1).mul p.2)
      (az.sub (c.mul (Poly.ntt (t.2.map (· * 8192 % dsaQ))))).invNtt
    let w1 := (indexed w).flatMap fun p => (indexed p.2).map fun x => useHint ((at' hints p.1 []).contains x.1) x.2
    let bytes := (List.range 768).map fun i => BitVec.ofNat 8 (at' w1 (2 * i) 0 + 16 * at' w1 (2 * i + 1) 0)
    key.length = 1952 && sig.length = 3309 && z.all (·.all dsaSmall) && shake256 (mu ++ bytes) 48 == seed

end Sys2Proof.Machine
end

