-- ==== Sys2Proof/Machine/Bringup.lean ====
section
/-!
DEFINITION. Bring-up, the issue gates, and the forming of partitions (R25 to R30, R260, R309, R315, R324 to R332).
-/
namespace Sys2Proof.Machine

/-! ### Bring-up (R325 to R327) -/

/-- POWER_GOOD (R325). -/
def execPowerGood (s : State) : Answer :=
  if s.powerGood then .next s else .next { s with powerGood := true, stage := 0 }

/-- FAILCODE of a stage that cannot complete (R332). DEDUCED, log 84. -/
def stageCode (stage : Nat) : BitVec 8 := if stage = 0 then 5 else BitVec.ofNat 8 stage

/-- Vector 1 of every partition's function (R320, R327). -/
def State.announce (s : State) : State := (List.range 4).foldl (fun s p => s.signal p 1) s

/-- Dies of formed partitions leave reset; one that is too hot is held at once (R331). -/
def State.release24 (s : State) : State :=
  let t := { s with dies := (List.range 24).foldl (fun m d =>
      if (s.partOf d).isSome then nset m d { s.die d with inReset := false } else m) s.dies }
  ((List.range 24).filter (fun d => (s.die d).inReset && t.dieLive d && t.tooHot d)).foldl State.heatHold t

/-- Whether the ROM and the management firmware accept the firmware (R326): its key hashes to the fused digest, and under
that key the signature of each of the 29 images verifies over the image's own digest. -/
def firmwareOk (f : FirmwareSet) : Bool :=
  ofBytes (shake256 f.key 64) = Config.rootDigest.toNat && f.images.length = 29
    && f.images.all (fun i => mldsaVerify f.key (shake256 i.1 64) i.2)

/-- The module enters Failed (R325, R327). -/
def State.failed (s : State) (code : BitVec 8) : State := { s with stage := 15, failcode := code }.announce

/-- BRINGUP_STAGE (R325 to R327): the stage's work is done, or cannot complete. Stage 1 checks the firmware: an image that
does not verify ends bring-up, whatever else is found. -/
def execBringupStage (e : StageEnd) (s : State) : Answer :=
  if !s.powerGood || 5 ≤ s.stage then .next s
  else if s.stage = 1 && e.fail != some 5 then
    .next (if firmwareOk e.fw then { s with stage := 2, fwok := true } else s.failed 1)
  else match e.fail with
    | some c => if c = stageCode s.stage || c = 5 then .next (s.failed c) else .next s
    | none =>
      if s.stage = 4 then
        (if (List.range 24).all (fun d => (s.partOf d).isSome) then
          .next { s with stage := 5, readyAt := s.time }.release24.announce
        else .next s)
      else .next { s with stage := s.stage + 1 }

/-! ### Gates (R329 to R332) -/

/-- The cap share of a partition in milliwatts, where a cap applies. -/
def Partition.capShare (k : Partition) : Option Nat :=
  if k.capEn then some (k.cap.toNat * 1000 / max 1 (bitsOf k.dies).length) else none

/-- The coolant share in milliwatts, where the inlet is above 35 °C. -/
def coolShare (tin : Nat) : Option Nat := if 35 < tin then some (640000 - 19200 * (tin - 35)) else none

/-- The smaller of two limits that may not apply. -/
def lesser : Option Nat → Option Nat → Option Nat
  | some a, some b => some (min a b)
  | some a, none => some a
  | none, b => b

/-- CAUSE of a partition: the cap where it binds, the coolant where its share lies below the cap's, a hot die. -/
def State.gateCause (s : State) (k : Partition) (tin : Nat) : BitVec 3 :=
  let full := 640000
  let cap := (k.capShare.getD full)
  let hot := (bitsOf k.dies).any (fun d => (s.die d).hot)
  (if cap < full then 1 else 0) + (if hot then 2 else 0)
    + (if ((coolShare tin).getD full) < min cap full then 4 else 0)

/-- A number as a register field of n bits shows it. -/
def capped (n v : Nat) : BitVec n := BitVec.ofNat n (min v (2 ^ n - 1))

/-- What a compute die may draw in milliwatts (R329). -/
def dieLimit : Nat := 640000

/-- The gate of a die after an interval: the largest that keeps it within its smallest share, and 16 less than before
while it is hot. -/
def nextGate (d : Nat) (x : Die) (share draw : Nat) : Nat :=
  let g := max 1 (min 255 (Config.gateWithin d share draw))
  if x.hot then min g (max 1 (x.gate - 16)) else g

/-- A die's junction as read: it is hot from 100 °C until below 97 °C. -/
def Die.read (x : Die) (t : Nat) : Die := { x with junction := t, hot := 100 ≤ t || (x.hot && 97 ≤ t) }

/-- PWRSTAT and the gates of a partition. -/
def State.gatePart (s : State) (env : ThermalReading) (part : Nat) : State :=
  let k := s.part part
  if !k.formed then s
  else
    let ds := bitsOf k.dies
    let share := min dieLimit ((lesser k.capShare (coolShare env.tin)).getD dieLimit)
    let s := ds.foldl (fun (s : State) d => s.setDie d ((s.die d).read (at' env.junction d 0))) s
    let s := ds.foldl (fun (s : State) d =>
      s.setDie d { s.die d with gate := nextGate d (s.die d) share (s.freeCtr + d) }) s
    s.setPart part { k with
      pwrCause := s.gateCause k env.tin
      tmax := capped 8 (ds.foldl (fun n d => max n (at' env.junction d 0)) 0)
      hbmW := capped 16 (ds.foldl (fun n d => n + at' env.hbmW d 0) 0)
      dieW := capped 16 (ds.foldl (fun n d => n + at' env.dieW d 0) 0) }

/-- GATE_UPDATE (R331, R332): every 100 µs, from what the sensors report; a die found too hot, or any while the coolant is
out of limits, is held at once. Nothing else refreshes COOLST and PWRSTAT. DESIGN CHOICE, log 126. -/
def execGateUpdate (env : ThermalReading) (s : State) : Answer :=
  if s.stage != 5 || (s.gateAt != 0 && s.time < s.gateAt + 100 * tickUs) then .next s
  else
    let s := (List.range 4).foldl (fun (s : State) p => s.gatePart env p) s
    let s := { s with gateAt := max 1 s.time, freeCtr := s.freeCtr + 24, tin := capped 8 env.tin, tout := capped 8 env.tout,
                      flow := capped 8 env.flow }
    .next ((List.range 24).foldl (fun s d => if s.dieLive d && s.tooHot d then s.heatHold d else s) s)

/-! ### Forming partitions (R25 to R30) -/

/-- The mask of a plan's dies. -/
def planMask (p : PartPlan) : BitVec 24 := maskOf p.dies

/-- Whether a set of dies may be a partition (R25). -/
def diesOk (l : List Nat) : Bool :=
  !l.isEmpty && l.all (· < 24) && [0, 11, 12, 23].any l.contains && connected l (fun k => k < 34)

/-- Whether plans share a boundary link (R28). -/
def shareLink (a b : PartPlan) : Bool :=
  (List.range 34).any (fun k =>
    let (x, y) := linkEnds k
    (a.dies.contains x && b.dies.contains y) || (a.dies.contains y && b.dies.contains x))

/-- Fields of a window register (R260). -/
def winBase (v : BitVec 128) : Nat := (v.extractLsb' 21 31).toNat * 2 ^ 21
def winLen (v : BitVec 128) : Nat := (v.extractLsb' 64 32).toNat * 2 ^ 21
def winPeer (v : BitVec 128) : Nat := (v.extractLsb' 96 2).toNat

/-- Whether a window of plan n is well formed: in the HBM of one die of one of its partitions, with its twin in the
peer's plan (R28, R260). -/
def windowOk (plans : List PartPlan) (n : Nat) (w : WindowPlan) : Bool :=
  let v := w.value
  let a := winBase v
  let peer := winPeer v
  w.reg < 8 && bitOf v 63 && (v.extractLsb' 98 30) == 0 && (v.extractLsb' 52 11) == 0 && (v.extractLsb' 0 21) == 0
    && 0 < winLen v && paSpace a = 0 && paMbz a = 0 && a / 2 ^ 37 = (a + winLen v - 1) / 2 ^ 37 && peer != n
    && (match plans[n]?, plans[peer]? with
      | some p, some q =>
        shareLink p q && (p.dies.contains (paDie a) || q.dies.contains (paDie a))
          && q.windows.any (fun x => winBase x.value = a && winLen x.value = winLen v && winPeer x.value = n)
      | _, _ => false)

/-- Whether a split keeps the floor of each direction of a boundary link (R14, R27). -/
def splitOk (plans : List PartPlan) (x : Nat × Nat) : Bool :=
  let (a, b) := linkEnds x.1
  x.1 < 34 && 2 ≤ x.2 && x.2 ≤ 14 && plans.any (fun p => p.dies.contains a != p.dies.contains b)

/-- Whether numbers rise. -/
def rising : List Nat → Bool
  | a :: b :: r => a < b && rising (b :: r)
  | _ => true

/-- Whether plans form partitions of the module (R25). -/
def plansOk (plans : List PartPlan) : Bool :=
  let all := plans.flatMap (·.dies)
  !plans.isEmpty && plans.length ≤ 4 && all.length = 24 && (List.range 24).all all.contains
    && plans.all (fun p => diesOk p.dies) && rising (plans.map (fun p => (least p.dies).getD 0))
    && (indexed plans).all (fun e => e.2.windows.all (windowOk plans e.1) && e.2.splits.all (splitOk plans))

/-- The partition that has the dies of a plan already, whatever its number (R30). -/
def State.heir (s : State) (p : PartPlan) : Option Nat :=
  (List.range 4).find? (fun o => (s.part o).formed && (s.part o).dies = planMask p)

/-- Whether a partition goes on as it stands under a plan. -/
def State.untouched (s : State) (p : PartPlan) : Bool := (s.heir p).any (fun o => !(s.part o).resetting)

/-- Whether every die whose partition changes is held in reset (R30). DEDUCED, log 75. -/
def State.formable (s : State) (plans : List PartPlan) : Bool :=
  (s.stage = 4 || s.stage = 5) && plansOk plans
    && plans.all (fun p => s.untouched p || p.dies.all (fun d => (s.die d).inReset))

/-- The registers of windows. -/
def planRegisters (p : PartPlan) : NMap (BitVec 128) := p.windows.foldl (fun m w => nset m w.reg w.value) []

/-- The number a partition goes on under: that of the plan with its dies, else one that no partition has. -/
def State.newNumber (s : State) (plans : List PartPlan) (o : Nat) : Nat :=
  (plans.findIdx? (fun p => s.heir p = some o)).getD (4 + o)

/-- The partitions under the numbers of their plans, what stood on the dies of any other cleared. DEDUCED, log 75. -/
def State.renumbered (s : State) (plans : List PartPlan) : State :=
  let gone := (List.range 4).filter (fun o => (s.part o).formed && 4 ≤ s.newNumber plans o)
  let t := gone.foldl (fun (t : State) o => t.clearDies o (t.part o).dies) s
  let t := if (List.range 4).all (fun o => !(s.part o).formed || s.newNumber plans o = o) then t
    else t.under (s.newNumber plans)
  { t with
    tags := t.tags.map fun e => if e.2.part < 4 then e
      else (e.1, { e.2 with part := (plans.findIdx? (fun p => p.dies.contains (lineDie e.1))).getD 0, ctx := none })
    parts := t.parts.filter (fun e => e.1 < 4) }

/-- A partition under a plan: one with its dies goes on, or keeps what a reset left of it; a new one starts, with its
function as the host has found it where it was there already. Whether the host link of a new one is up goes by its number,
also where its function moves to another port. DESIGN CHOICE, log 106. -/
def State.formPart (s : State) (n : Nat) (p : PartPlan) (up : Bool) : Partition :=
  let k := s.part n
  let k := if k.formed && k.dies = planMask p then { k with resetting := false }
    else { (if k.formed then Partition.zero else k) with formed := true, dies := planMask p, pcieUp := up }
  { k with bwin := planRegisters p }

/-- The plan that holds a die. -/
def planOf (plans : List PartPlan) (die : Nat) : Option Nat := plans.findIdx? (fun p => p.dies.contains die)

/-- A link as partitions are formed (R27, R309, R315, R398): between two of them the split of the plan, inside one that
goes on as it stands, else at the reset split. -/
def State.formLink (s : State) (plans : List PartPlan) (kept : List Nat) (k : Nat) : Link :=
  let (a, b) := linkEnds k
  let l := s.link k
  let pa := planOf plans a
  let pb := if 24 ≤ b then pa else planOf plans b
  let stands (d : Nat) : Bool := 24 ≤ d || (s.die d).status == .running
  let fresh : Link := { Link.zero with closed := !(stands a && stands b) }
  if pa != pb then
    let n := ((plans.flatMap (·.splits)).find? (fun x => x.1 = k)).elim 8 (·.2)
    { fresh with boundary := true, auto := false, up := BitVec.ofNat 16 (2 ^ (16 - n) - 1) }
  else if pa.elim false kept.contains then l
  else fresh

/-- The fingerprints of all partitions (R324). -/
def State.fingerprints (s : State) (n : Nat) : State :=
  (List.range n).foldl (fun (s : State) p =>
    s.setPart p { s.part p with cfgfp := s.fingerprint (s.part p).dies (s.part p).feat }) s

/-- Whether firmware may give the module this size and number of its domain: before Ready, a number below the modules'
count (R321). DEDUCED, log 79. -/
def State.domainOk (s : State) (dom : Option (BitVec 5 × BitVec 5)) : Bool :=
  dom.elim true (fun d => s.stage = 4 && d.2.toNat ≤ d.1.toNat)

/-- The module's place in its domain as firmware gives it. -/
def State.inDomain (s : State) (dom : Option (BitVec 5 × BitVec 5)) : State :=
  match dom with
  | some (n, m) => { s with domSize := n, domModule := m }
  | none => s

/-- PARTITION_FORM (R25 to R30, R260, R321, R324): from Ready on, the dies of the partitions formed anew leave reset. -/
def execPartitionForm (f : FormPlan) (s : State) : Answer :=
  let plan := f.parts
  if !s.formable plan || !s.domainOk f.domain then .next s
  else
    let s := s.inDomain f.domain
    let kept := ((indexed plan).filter (fun e => s.untouched e.2)).map (·.1)
    let old := (List.range 4).filter (fun p => plan.length ≤ p)
    let u := s.renumbered plan
    let t := (indexed plan).foldl (fun (t : State) e => t.setPart e.1 (u.formPart e.1 e.2 (s.part e.1).pcieUp)) u
    let t := old.foldl (fun (t : State) p => t.setPart p { Partition.zero with pcieUp := (s.part p).pcieUp }) t
    let t := (List.range 38).foldl (fun (t : State) k => t.setLink k (s.formLink plan kept k)) t
    let t := t.fingerprints plan.length
    .next (if s.stage = 5 then t.release24 else t)

end Sys2Proof.Machine
end

