-- ==== Sys2Proof/Machine/Matrix.lean ====
section
/-!
DEFINITION. The matrix sequencer: geometry checks at the start of a command, K-steps, their sums and their faults
(R74, R75, R195 to R199, R231, R236 to R239, R378, R379, R418).
-/
namespace Sys2Proof.Machine

/-! ### Format pairs (R74, R195) -/

/-- A pair of operand formats: products of a K-step, format of the accumulator, whether A may be sparse. -/
structure Pairing where
  ks : Nat
  acc : Nat
  sparse : Bool
  deriving DecidableEq, Repr

/-- The pairs of R195 by the command that takes them. -/
def pairing (tern : Bool) (a b : Nat) : Option Pairing :=
  let isQ (f : Nat) := f = 4 || f = 5
  let isN (f : Nat) := f = 8 || f = 9
  if tern then (if a = 11 && b = 8 then some ⟨256, 6, false⟩ else none)
  else if a = b && (a = 2 || a = 3) then some ⟨32, 1, true⟩
  else if isQ a && isQ b then some ⟨64, 1, true⟩
  else if a = 1 && b = 1 then some ⟨8, 1, false⟩
  else if a = 0 && b = 0 then some ⟨1, 0, false⟩
  else if (isN a && isN b) || (a = 10 && b = 8) then some ⟨64, 6, true⟩
  else none

/-- A matrix command's pair; one that fails its check stands with a K-step of 32 for the checks after it. -/
def MatrixCmd.pair (m : MatrixCmd) : Pairing := (pairing m.tern (mgAfmt m.mg) (mgBfmt m.mg)).getD ⟨32, 1, true⟩

/-- C, AINC and BINC of a matrix command (R196). -/
def MatrixCmd.count (m : MatrixCmd) : Nat := m.sa.toNat % 2 ^ 32
def MatrixCmd.ainc (m : MatrixCmd) : Int := signedOf 32 m.sb.toNat
def MatrixCmd.binc (m : MatrixCmd) : Int := signedOf 32 (m.sb.toNat >>> 32)

/-- Products of K-step s: KLAST in the last one where it is not 0. -/
def MatrixCmd.products (m : MatrixCmd) (s : Nat) : Nat :=
  if s + 1 = m.count && mgKlast m.mg != 0 then mgKlast m.mg else m.pair.ks

/-- The engines a matrix command acts for. DEDUCED, log 47. -/
def MatrixCmd.engines (m : MatrixCmd) : List Nat := m.obs.map (·.1)

/-- Sources of its operands in an engine. -/
def MatrixCmd.srcA (m : MatrixCmd) (e : Nat) : Source := sourceA m.mg e (ngetD m.obs e (0, 0))
def MatrixCmd.srcB (m : MatrixCmd) (e : Nat) : Source := sourceB m.mg e (ngetD m.obs e (0, 0))

/-! ### Rows of dense operands (R63, R72, R196, R197) -/

/-- The format the elements of a row are stored in: of an OSB source, the record's. -/
def Source.rowFmt (src : Source) (f : Nat) : Nat := match src with | .osb _ r => obEfmt r | _ => f

/-- Bytes n elements of a format take from the start of a row. -/
def runBytes (f n : Nat) : Nat := if f = 11 then (n + 4) / 5 else (n * fmtWidth f + 7) / 8

/-- Bytes of a range that hold elements: with block scales, those below SOFF (R71). -/
def obElemBytes (r : BitVec 128) : Nat := if obBsen r then obSoff r else obLen r * 64

/-- The bytes of a row of n elements, none where one of them may not be read. DEDUCED, log 46. -/
def State.rowRaw (s : State) (c : CtxRef) (src : Source) (f : Nat) (off : Int) (n : Nat) : Option (List Byte) :=
  let len := runBytes (src.rowFmt f) n
  match src with
  | .osb _ r => if within off len (obElemBytes r) then s.srcBytes c src off len else none
  | _ => s.srcBytes c src off len

/-- A row of a dense operand: outside what the program may read, with the first byte that is no trits, or its values
and the flags of their scaling. -/
inductive RowRead where
  | outside
  | noTrit (at_ : Nat)
  | row (l : List (Val × Flags))
  deriving DecidableEq, Repr

/-- n elements of a row from an offset of a source. -/
def State.readRow (s : State) (c : CtxRef) (src : Source) (f : Nat) (off : Int) (n : Nat) : RowRead :=
  match s.rowRaw c src f off n with
  | none => .outside
  | some l =>
    let g := src.rowFmt f
    match (if g = 11 then l.findIdx? (fun b => 243 ≤ b.toNat) else none) with
    | some i => .noTrit i
    | none =>
      let v := ofBytes l
      let bits (k : Nat) : Nat := (rangeElem g v k).getD 0
      .row ((List.range n).map fun k => match src with
        | .osb e r =>
          let j := (if g = 11 then off.toNat * 5 else off.toNat * 8 / fmtWidth g) + k
          rangeValue r (s.rangeNum c e r) j (bits k)
        | _ => (elemVal g (bits k), 0))

/-- What ends a matrix command with a fault: code, TRAPVAL and engine. -/
structure MatrixFault where
  code : BitVec 8
  val : Word
  eng : Nat
  deriving DecidableEq, Repr

/-- A geometry fault (0x61) by its reason (R361, R378). -/
def geometry (reason eng : Nat) : MatrixFault := { code := 0x61, val := BitVec.ofNat 64 reason, eng := eng }

/-- Rows of one operand in a K-step: their offsets, the elements of each and its format. -/
structure Rows where
  src : Source
  fmt : Nat
  base : Int
  stride : Nat
  rows : Nat
  elems : Nat
  reason : Nat
  deriving DecidableEq, Repr

/-- A and B of K-step n in engine e. -/
def MatrixCmd.rowsA (m : MatrixCmd) (e n : Nat) : Rows :=
  { src := m.srcA e, fmt := mgAfmt m.mg, base := mgAbase m.mg + n * m.ainc, stride := mgAstride m.mg,
    rows := mgRows m.mg, elems := m.products n, reason := 6 }
def MatrixCmd.rowsB (m : MatrixCmd) (e n : Nat) : Rows :=
  { src := m.srcB e, fmt := mgBfmt m.mg, base := mgBbase m.mg + n * m.binc, stride := mgBstride m.mg,
    rows := m.products n, elems := mgCols m.mg, reason := 7 }

/-- Whether every row lies where it may be read. -/
def State.rowsInside (s : State) (c : CtxRef) (r : Rows) : Bool :=
  (List.range r.rows).all fun i => (s.rowRaw c r.src r.fmt (r.base + (i * r.stride : Nat)) r.elems).isSome

/-- The values of every row, or the fault of a K-step that may not read one or meets a byte that is no trits. -/
def State.readRows (s : State) (c : CtxRef) (r : Rows) (n eng : Nat) : Except MatrixFault (List (List (Val × Flags))) :=
  let off (i : Nat) : Int := r.base + (i * r.stride : Nat)
  let got := (List.range r.rows).map (fun i => (i, s.readRow c r.src r.fmt (off i) r.elems))
  if got.any (fun p => p.2 == .outside) then .error (geometry r.reason eng)
  else match least (got.filterMap (fun p => match p.2 with
      | .noTrit k => some ((off p.1).toNat + k)
      | _ => none)) with
    | some b => .error { code := 0x63, val := BitVec.ofNat 64 (n * 2 ^ 32 + b % 2 ^ 18), eng := eng }
    | none => .ok (got.map (fun p => match p.2 with | .row l => l | _ => []))

/-! ### Sums (R74, R75) -/

/-- The product of two elements; in every format but FP32 and FP64 a zero factor gives zero whatever the other is. -/
def mprod (zeros : Bool) (a b : Val) : Val := if zeros && (a.isZero || b.isZero) then .fin false 0 0 else (a.mul b).1

/-- The exact sum of numbers: NaN, an infinity, or a dyadic. -/
def sumVals (l : List Val) : Val :=
  let inf (neg : Bool) := l.any (fun v => v == .inf neg)
  if l.any Val.isNan || (inf false && inf true) then .nan false
  else if inf false then .inf false
  else if inf true then .inf true
  else
    let es := l.filterMap (fun v => match v with | .fin _ m e => if m = 0 then none else some e | _ => none)
    let q := es.foldl min (es.headD 0)
    let t := l.foldl (fun t v => match v with
      | .fin n m e => if m = 0 then t else t + scaleTo n m e q
      | _ => t) 0
    .fin (t < 0) t.natAbs q

/-- round_acc: never -0, NV with every NaN. -/
def roundAcc (x : Val) : Nat × Flags :=
  match x with
  | .nan _ => (canonicalNan 1, fNV)
  | .inf n => (infBits 1 n, 0)
  | .fin _ m _ => if m = 0 then (0, 0) else
    let (b, f) := roundTo 1 x 0 false
    (b, f &&& fOF)

/-- The integer a value is, if it is one. -/
def Val.toInt? (v : Val) : Option Int :=
  match v with
  | .fin n m e =>
    if m = 0 then some 0
    else if 0 ≤ e then some (scaleTo n m e 0)
    else if m % 2 ^ (-e).toNat = 0 then some (let k : Int := (m >>> (-e).toNat : Nat); if n then -k else k) else none
  | _ => none

/-- One accumulator element after a K-step over its products; open is the free value a sum takes that is no integer
of an .s32 accumulator, which the manual states no result for. DESIGN CHOICE, log 48. -/
def accumulate (acc : Nat) (sat : Bool) (old : Nat) (as bs : List Val) (zeros : Bool) (open_ : Nat) : Nat × Flags :=
  if acc = 0 then
    (as.zip bs).foldl (fun (r : Nat × Flags) p =>
      let (v, f) := Val.fma p.1 p.2 (valOf 0 r.1) false 0
      let (b, g) := roundTo 0 v 0 false
      (b, r.2 ||| ((f ||| g) &&& (fNV ||| fOF)))) (old, 0)
  else
    let l := (as.zip bs).map (fun p => mprod zeros p.1 p.2)
    if acc = 1 then roundAcc (sumVals (valOf 1 old :: l))
    else match (sumVals l).toInt? with
      | some t => intOut 6 sat (intOf 6 old + t)
      | none => (open_ % 2 ^ 32, 0)

/-- Bit place and width of element (i, j) of an accumulator: rows of 128 bytes (R19, R74). -/
def accBit (acc i j : Nat) : Nat := i * 1024 + j * fmtWidth acc

/-- A row of an accumulator's elements replaced from column 0. -/
def setAccRow (a : AccBits) (acc i : Nat) (l : List Nat) : AccBits :=
  let w := fmtWidth acc
  let v := l.foldr (fun x n => x % 2 ^ w + n <<< w) 0
  let at_ := accBit acc i 0
  let mask : AccBits := BitVec.ofNat 32768 ((2 ^ (w * l.length) - 1) <<< at_)
  (a &&& ~~~mask) ||| BitVec.ofNat 32768 (v <<< at_)

/-- The accumulator and the flags of an engine after a K-step over A's rows and B's rows. -/
def MatrixCmd.stepSum (m : MatrixCmd) (n : Nat) (old : AccBits) (a b : List (List Val)) (draw : Nat) : AccBits × Flags :=
  let acc := m.pair.acc
  let zeros := acc = 6 || (1 < mgAfmt m.mg && mgAfmt m.mg < 6)
  let cols := (List.range (mgCols m.mg)).map (fun j => b.map (fun r => at' r j (.fin false 0 0)))
  (List.range (mgRows m.mg)).foldl (fun (x : AccBits × Flags) i =>
    let row := (indexed cols).map (fun p =>
      let o := if n = 0 && mgZacc m.mg then 0 else (old >>> accBit acc i p.1).toNat % 2 ^ fmtWidth acc
      accumulate acc (mgSat m.mg) o (at' a i []) p.2 zeros (Config.freeChoice (draw + i * 32 + p.1)))
    (setAccRow x.1 acc i (row.map (·.1)), row.foldl (fun f r => f ||| r.2) x.2)) (old, 0)

/-! ### A K-step of one engine (R231, R237, R238) -/

/-- What a K-step reads for A: rows, or an honoured ZERO; whether a ZERO was stale; and its cycles. -/
structure StepA where
  rows : Option (List (List (Val × Flags)))
  stale : Bool
  cycles : Nat
  deriving DecidableEq, Repr

/-- The malformed-metadata fault (R238). -/
def malformed (n group eng reason : Nat) : MatrixFault :=
  { code := 0x62, eng := eng,
    val := BitVec.ofNat 64 (n * 2 ^ 32 + group % 4096 * 2 ^ 20 + eng * 2 ^ 16 + reason * 2 ^ 8) }

/-- The sparse A of K-step n in engine e, or its fault with whether its ZERO was stale (R231, R237, R238); regions that leave
what may be read fault after the checks. -/
def State.sparseA (s : State) (m : MatrixCmd) (n e : Nat) : Except (MatrixFault × Bool) StepA :=
  let c := m.by_.ctx
  let src := m.srcA e
  let off : Int := mgAbase m.mg + n * m.ainc
  let v : View := { vrow := saVrow m.sa, tv := saTv m.sa, step := n, rows := mgRows m.mg, ks := m.pair.ks }
  match s.srcBytes c src off 16 with
  | none => .error (geometry 6 e, false)
  | some l =>
    match headerCheck l off (mgAfmt m.mg) v with
    | some r => .error (malformed n 0xFFF e r, false)
    | none =>
      let h := headerOf l
      if h.zero && s.genMatches c src off h then .ok { rows := none, stale := false, cycles := h.cycles true }
      else
        let need := h.readBytes v.tv
        let n' := s.srcReach c src off need
        let t := tileOf ((s.srcBytes c src off n').getD [])
        let stale := h.zero && (match src with | .osb _ _ => false | _ => true)
        match t.badGroup v n' with
        | some g => .error (malformed n g e 6, stale)
        | none =>
          if n' < need then .error (geometry 6 e, stale)
          else
            let scale (x : Val) : Val × Flags := match src with
              | .osb _ r => scaled x (.ofInt 1) (valOf 1 (obTscale r))
              | _ => (x, 0)
            .ok { stale := stale, cycles := h.cycles false
                  rows := some ((List.range (mgRows m.mg)).map fun i => (List.range (m.products n)).map fun k =>
                    match t.logical v i k with
                    | some b => scale (valOf h.fmt b)
                    | none => (.fin false 0 0, 0)) }

/-- A of K-step n in engine e. -/
def State.stepA (s : State) (m : MatrixCmd) (n e : Nat) : Except (MatrixFault × Bool) StepA :=
  if mgSparse m.mg then s.sparseA m n e
  else match s.readRows m.by_.ctx (m.rowsA e n) n e with
    | .error f => .error (f, false)
    | .ok l => .ok { rows := some l, stale := false, cycles := denseCycles m.mg }

/-- What a K-step does in one engine: its accumulator, its flags and its cycles. -/
structure StepOut where
  eng : Nat
  acc : AccBits
  flags : Flags
  cycles : Nat
  deriving DecidableEq, Repr

/-- K-step n in engine e; a stale ZERO that it meets stands in both answers. A step that an honoured ZERO skips still reads
B for its faults, and takes no flag of it. DEDUCED, log 123. -/
def State.stepEngine (s : State) (m : MatrixCmd) (n e : Nat) : Except (MatrixFault × Bool) StepOut :=
  let old := ((s.ctx m.by_.ctx).engine e).accum (mgAcc m.mg)
  match s.stepA m n e with
  | .error f => .error f
  | .ok a =>
    match s.readRows m.by_.ctx (m.rowsB e n) n e with
    | .error f => .error (f, a.stale)
    | .ok b =>
      let zero : List (List (Val × Flags)) := List.replicate (mgRows m.mg) []
      let rows := a.rows.getD zero
      let vals (x : List (List (Val × Flags))) := x.map (fun r => r.map (·.1))
      let (acc, f) := m.stepSum n old (vals rows) (vals b) (s.freeCtr + 1024 * e)
      let g := if a.rows.isNone then 0
        else (rows ++ b).foldl (fun f r => r.foldl (fun f x => f ||| (x.2 &&& fNV)) f) 0
      .ok { eng := e, acc := acc, flags := f ||| g ||| (if a.stale then fSTALEZ else 0), cycles := a.cycles }

/-- Engines in ascending order, up to the first one that fails, its B window among its checks; a stale ZERO counts that was
met before it, and no higher engine is looked at. DESIGN CHOICE, log 105. -/
def State.stepAll (s : State) (m : MatrixCmd) (n : Nat) : List Nat → Except (MatrixFault × Bool) (List StepOut)
  | [] => .ok []
  | e :: r =>
    match s.stepEngine m n e with
    | .error f => .error f
    | .ok x =>
      match s.stepAll m n r with
      | .error (f, stale) => .error (f, stale || bitOf x.flags 6)
      | .ok l => .ok (x :: l)

/-! ### Start and end of a command (R195, R198, R236, R378) -/

/-- The K-steps whose operands the start of a command looks at: all of them, the outermost ones first. -/
def MatrixCmd.inAll (m : MatrixCmd) (inc : Int) (ok : Nat → Bool) : Bool :=
  ok 0 && ok (m.count - 2) && ok (m.count - 1) && (inc = 0 || (List.range m.count).all ok)

/-- Whether A, or B, of an engine lies inside what the program may read; of a sparse A, its headers. -/
def State.insideA (s : State) (m : MatrixCmd) (e : Nat) : Bool :=
  m.inAll m.ainc fun n =>
    if mgSparse m.mg then (s.srcBytes m.by_.ctx (m.srcA e) (mgAbase m.mg + n * m.ainc) 16).isSome
    else s.rowsInside m.by_.ctx (m.rowsA e n)
def State.insideB (s : State) (m : MatrixCmd) (e : Nat) : Bool :=
  m.inAll m.binc fun n => s.rowsInside m.by_.ctx (m.rowsB e n)

/-- A source record of engine e that is not valid at use (R377). -/
def State.badRecord (s : State) (m : MatrixCmd) (e : Nat) : Option Nat :=
  let (a, b) := ngetD m.obs e (0, 0)
  let size := (s.ctx m.by_.ctx).osbSize
  if mgAsrc m.mg = 1 && !obValid a size then some (mgAob m.mg)
  else if mgBsrc m.mg = 1 && !obValid b size then some (mgBob m.mg)
  else none

/-- The fault of a command's start: the lowest reason that holds, in its lowest engine; records are valid before a
range is measured in them. DEDUCED, log 45. -/
def State.startFault (s : State) (m : MatrixCmd) : Option MatrixFault :=
  let p := pairing m.tern (mgAfmt m.mg) (mgBfmt m.mg)
  let es := m.engines
  let e0 := es.headD 0
  if p.isNone then some (geometry 1 e0)
  else if mgSparse m.mg && !m.pair.sparse then some (geometry 2 e0)
  else if mgSat m.mg && m.pair.acc != 6 then some (geometry 3 e0)
  else if m.pair.ks ≤ mgKlast m.mg then some (geometry 4 e0)
  else if mgSparse m.mg && mgAstride m.mg != 0 then some (geometry 5 e0)
  else match es.findSome? (fun e => (s.badRecord m e).map (fun o => (⟨0x65, BitVec.ofNat 64 o, e⟩ : MatrixFault))) with
    | some f => some f
    | none => match es.find? (fun e => !s.insideA m e) with
      | some e => some (geometry 6 e)
      | none => match es.find? (fun e => !s.insideB m e) with
        | some e => some (geometry 7 e)
        | none =>
          if mgAfmt m.mg = 0 && 16 < mgCols m.mg then some (geometry 8 e0)
          else if mgSparse m.mg && mgAsrc m.mg = 1 then
            (es.find? (fun e => obBsen (ngetD m.obs e (0, 0)).1)).map (geometry 9)
          else none

/-- The sectors of rows of a window operand on another core. -/
def State.rowSectors (s : State) (c : CtxRef) (r : Rows) (e : Nat) : List WindowPiece :=
  (List.range r.rows).flatMap fun i =>
    let len := runBytes (r.src.rowFmt r.fmt) r.elems
    match r.src, s.srcPlace c r.src (r.base + (i * r.stride : Nat)) len with
    | .window _ _, some (core, g, a) =>
      if core = c.core || 48 ≤ core then []
      else (sectorRuns a len).map fun p => { pos := corePos core, eng := e, place := (core, g, p.1), bytes := [] }
    | _, _ => []

/-- The sectors of other cores that a K-step reads as operands of source 2 (R199). -/
def State.stepPieces (s : State) (m : MatrixCmd) (n : Nat) : List WindowPiece :=
  let c := m.by_.ctx
  let tile (e : Nat) : Rows :=
    let off : Int := mgAbase m.mg + n * m.ainc
    let len := ((s.srcBytes c (m.srcA e) off 16).map (fun l => (headerOf l).readBytes (saTv m.sa))).getD 0
    { src := m.srcA e, fmt := 8, base := off, stride := 0, rows := 1, elems := len, reason := 6 }
  m.engines.flatMap fun e =>
    s.rowSectors c (if mgSparse m.mg then tile e else m.rowsA e n) e ++ s.rowSectors c (m.rowsB e n) e

/-- They travel on the cluster's Indigo plane (R199, R304). -/
def State.stepTransfers (s : State) (m : MatrixCmd) (n : Nat) : State :=
  let c := m.by_.ctx
  s.pushTransfers c.die (clusterOf c.core)
    (windowTransfers m.id (.gang c.die c.core c.ctx false) (corePos c.core) false s.time (s.stepPieces m n))

/-- The command at the head of a core's matrix queue leaves it: its flags are set, and a fault is its issuer's
(R70, R196, R379). -/
def State.endMatrix (s : State) (die core : Nat) (m : MatrixCmd) (flags : Flags) (f : Option MatrixFault) : State :=
  let k := s.core die core
  let s := (s.setCore die core (Core.moved { k with matq := k.matq.filter (fun x => x.id != m.id) } 2 s.time)).orFlags m.by_.ctx flags
  match f with
  | some f => s.raiseBy m.by_ f.code 3 f.val f.eng 1
  | none => s

/-- MATRIX_COMMAND_START (R195, R198): one that acts for no engine completes here. -/
def execMatrixCommandStart (die core : Nat) (s : State) : Answer :=
  let k := s.core die core
  match k.matq with
  | [] => .next s
  | m :: r =>
    if m.running then .next s
    else if m.engines.isEmpty then .next (s.endMatrix die core m 0 none)
    else match s.startFault m with
      | some f => .next (s.unitStep (s.endMatrix die core m 0 (some f)))
      | none => .next (s.setCore die core { k with matq := { m with running := true, step := 0, stepAt := s.time } :: r })

/-- MATRIX_KSTEP_DONE (R196, R239, R304): sectors that the K-step reads from other cores are sent for first and must have
landed; it reads as of this moment, once the time its tiles take is over, and writes; a fault leaves the accumulators after the K-step before. -/
def execMatrixKstepDone (die core : Nat) (s : State) : Answer :=
  let k := s.core die core
  match k.matq with
  | [] => .next s
  | m :: r =>
    if !m.running then .next s
    else if m.sent && s.onWay m.by_.ctx.die (clusterOf (s.homeOf m.by_.ctx).core) m.id then .next s
    else if !m.sent && !(s.stepPieces m m.step).isEmpty then
      .next ((s.stepTransfers m m.step).setCore die core { k with matq := { m with sent := true } :: r })
    else match s.stepAll m m.step m.engines with
      | .error (f, stale) =>
        .next (s.unitStep (s.endMatrix die core m (m.flags ||| (if stale then fSTALEZ else 0)) (some f)))
      | .ok l =>
        let cycles := l.foldl (fun n x => max n x.cycles) 0
        if s.time < m.stepAt + 80 * cycles then .next s
        else
          let c := m.by_.ctx
          let flags := l.foldl (fun f x => f ||| x.flags) m.flags
          let s := { s with freeCtr := s.freeCtr + 16384 }
          let s := s.setCtx c (l.foldl (fun x o =>
            x.setEngine o.eng { x.engine o.eng with acc := nset (x.engine o.eng).acc (mgAcc m.mg) o.acc }) (s.ctx c))
          if m.count ≤ m.step + 1 then .next (s.endMatrix die core m flags none)
          else .next (s.setCore die core (Core.moved { s.core die core with
            matq := { m with step := m.step + 1, stepAt := s.time, flags := flags, sent := false } :: r } 2 s.time))

end Sys2Proof.Machine
end

