-- ==== Sys2Proof/Machine/Mesh.lean ====
section
/-!
DEFINITION. The Indigo plane's slots and deliveries, and the routers of the Umber plane (R301 to R308).
-/
namespace Sys2Proof.Machine

/-! ### The Indigo plane (R301 to R304) -/

/-- Whether a transfer uses owned slots (R303). -/
def Indigo.entitled (k : Indigo) (t : IndigoTransfer) : Bool := k.table.any (fun w => slotCovers w t)

/-- The transfer that a slot takes: in an owned one the earliest ready that it covers, in a free one that of the next
position in turn (R303, R304). -/
def Indigo.pick (k : Indigo) (now slot : Nat) : Option IndigoTransfer :=
  let w := at' k.table slot 0
  let ready := k.waiting.filter (fun t => t.readyAt ≤ now)
  if slotOwned w then ready.find? (slotCovers w)
  else
    let free := ready.filter (fun t => !k.entitled t)
    (List.range 4).findSome? (fun i => free.find? (fun t => t.src = (k.turn + i) % 4))

/-- A list without its first element that equals one. -/
def dropFirst [DecidableEq α] (a : α) : List α → List α
  | [] => []
  | b :: r => if b = a then r else b :: dropFirst a r

/-- INDIGO_SLOT (R304): the slot of this cycle, once, carries one transfer, which lands six cycles later. -/
def execIndigoSlot (die cluster : Nat) (s : State) : Answer :=
  let k := s.indigo die cluster
  let now := s.cycle
  if 24 ≤ die || 12 ≤ cluster || k.lastSlot = some now then .next s
  else match k.pick s.time (now % 64) with
    | none => .next s
    | some t =>
      .next (s.setIndigo die cluster { k with
        lastSlot := some now
        turn := if slotOwned (at' k.table (now % 64) 0) then k.turn else (t.src + 1) % 4
        waiting := dropFirst t k.waiting
        flying := k.flying ++ [{ t with landsAt := some (now + 6) }] })

/-- A transfer of a copy lands: its bytes are written, and each block's counter advances once for the command. -/
def State.landCopy (s : State) (die : Nat) (t : IndigoTransfer) : State :=
  let home : Option CtxRef := t.who.ctx?.map s.homeOf
  match home.bind (fun h => ((s.core h.die h.core).copies.find? (fun m => m.id = t.id)).map (fun m => (h, m))) with
  | none => s.performWrites streamRank die t.writes []
  | some (h, m) =>
    let s := s.performWrites streamRank die t.writes m.landed
    let k := s.core h.die h.core
    let m := { m with landed := dedup (m.landed ++ t.writes.flatMap writeBlocks) }
    s.setCore h.die h.core { k with copies := k.copies.map (fun x => if x.id = m.id then m else x) }

/-- Transfers that land, one after another; left are those still on their way. -/
def State.landTransfers (s : State) (die : Nat) (left : List IndigoTransfer) : List IndigoTransfer → State
  | [] => s
  | t :: r =>
    let rest := ((r ++ left).filter (fun u => u.id = t.id)).flatMap (fun u => u.writes.flatMap writeBlocks)
    (if t.writes.isEmpty then s else if t.copy then s.landCopy die t
      else s.performWrites (tileRank t.who) die t.writes rest).landTransfers die left r

/-- INDIGO_DELIVERY (R256, R304): the transfers due land, in the order they were sent. -/
def execIndigoDelivery (die cluster : Nat) (s : State) : Answer :=
  let k := s.indigo die cluster
  let due (t : IndigoTransfer) : Bool := t.landsAt.elim false (· ≤ s.cycle)
  let l := k.flying.filter due
  let k := { k with flying := k.flying.filter (fun t => !due t) }
  .next ((s.setIndigo die cluster k).landTransfers die (k.waiting ++ k.flying) l)

/-! ### Routers of the Umber plane (R305 to R308) -/

/-- Ticks of one fabric cycle. -/
def fabric : Nat := 105

/-- A router of a die: 0 to 47 at the cores, 48 to 53 at the groups of four L2 slices. -/
def routerOk (die router : Nat) : Bool := die < 24 && router < 54

/-- The class of an access's packets toward its home (R305): launches and work-graph bins have their own. -/
def Access.msgClass (a : Access) : MsgClass :=
  match a.op with
  | .launch _ _ | .nodeput _ _ => .eng
  | _ => .req

/-- The packets of a piece's access where they stand: toward its home its own class and a data flit more for what it stores,
back from there a response with what it returns; while a store's copies on other dies are withdrawn, a message to each
(R305, R306). Router and input port of each. -/
def State.piecePackets (s : State) (a : Access) (i : Nat) (p : Piece) : List ((Nat × Nat) × Nat × Packet) :=
  match p.pa with
  | none => []
  | some pa =>
    let core : List (Nat × Nat) := match s.seat a.who with
      | .gang d c _ _ => [(d, c)]
      | .ochre _ _ => []
    let home : List (Nat × Nat) := if paLocal pa then [homeRouter pa] else []
    let ask : Packet := { id := a.id, n := i, cls := a.msgClass, flits := if a.op.isLoad then 1 else 2 }
    let back : Packet := { id := a.id, n := i, cls := .rsp, flits := if a.op.returns then 2 else 1 }
    let told : List (Nat × Nat) := if a.op.isLoad then [] else
      (bitsOf (ngetD s.dir (pa / 64) 0)).map (fun d => (d, 48 + lineSlice (pa / 64) / 4))
    let fwd (d : Nat) : Packet := { id := a.id, n := (d + 1) * 65536 + i, cls := .fwd, flits := 1 }
    match p.st with
    | .open_ | .early => core.map (fun r => (r, 0, ask)) ++ home.map (fun r => (r, 1, ask))
    | .performed =>
      home.map (fun r => (r, 0, back)) ++ core.map (fun r => (r, 1, back))
        ++ home.flatMap (fun r => told.map (fun u => (r, 0, fwd u.1))) ++ told.map (fun u => (u, 1, fwd u.1))
    | .acked | .failed _ => []

/-- The packets of a core's units: reads and writes of copies, rings and QCVT, requests for the gather engine and members
of collectives (R305). -/
def State.unitPackets (s : State) (die core : Nat) : List Packet :=
  let k := s.core die core
  let here (b : Issuer) : Bool := (s.homeOf b.ctx).die = die && (s.homeOf b.ctx).core = core
  k.copies.map (fun m => { id := m.id, n := 0, cls := .req, flits := 2 })
    ++ k.rings.map (fun r => { id := r.id, n := 0, cls := .req, flits := 2 })
    ++ (k.morq.take 1).filterMap (fun m => match m.op with
      | .qcvt _ => some { id := m.id, n := 0, cls := .req, flits := 1 }
      | _ => none)
    ++ ((s.die die).gq.filter (fun g => here g.by_)).map (fun g => { id := g.id, n := 0, cls := .eng, flits := 2 })
    ++ s.colls.flatMap (fun i => (i.members.filter (fun m => !m.written && !m.dead && here m.by_)).map
      (fun m => { id := m.id, n := 0, cls := .eng, flits := 2 }))

/-- Packets of class WALK: the reads of walks under way at the slices of the tables, translations being withdrawn and
fault records not written yet at the cores (R305). -/
def State.walkPackets (s : State) (die router : Nat) : List (Nat × Packet) :=
  let walks := s.dies.flatMap (fun d => (d.2.merge.filter (fun e => !e.2.faulted
    && (s.walkRouters e.2.part (e.2.region * 65536)).contains (die, router))).map
      (fun e => (1, { id := e.2.started, n := 0, cls := .walk, flits := 1 : Packet })))
  let gone := (List.range 4).filterMap fun p =>
    if router < 48 && bitOf (s.part p).dies die && !(s.part p).tlbDone then
      some (1, { id := p, n := 1, cls := .walk, flits := 1 : Packet }) else none
  let records := (List.range 4).flatMap fun p => (indexed (s.part p).holding).filterMap fun r =>
    if r.2.src.toNat % 32 = die && r.2.src.toNat / 32 % 64 = router then
      some (0, { id := p, n := r.1 + 2, cls := .walk, flits := 2 : Packet }) else none
  walks ++ gone ++ records

/-- Packets of class MGT: register requests and interrupts of the host, at the first group of slices of the die that presents
the function. -/
def State.mgtPackets (s : State) (die router : Nat) : List (Nat × Packet) :=
  if router != 48 then [] else
  (List.range 4).flatMap fun p =>
    if s.functionDie p != some die then [] else
    (indexed (s.part p).asks).map (fun a => (1, { id := p, n := a.1 + 1, cls := .mgt, flits := 1 : Packet }))
      ++ (if (s.part p).msixOwed then [(0, { id := p, n := 0, cls := .mgt, flits := 1 })] else [])

/-- The packets at a router, with the input port of each (R305, R306). DESIGN CHOICE, log 71. -/
def State.packetsAt (s : State) (die router : Nat) : List (Nat × Packet) :=
  let accs := s.accs.flatMap fun a => (indexed a.pieces).flatMap fun p => s.piecePackets a p.1 p.2
  (accs.filter (fun e => e.1 = (die, router))).map (·.2)
    ++ (if router < 48 then (s.unitPackets die router).map (fun p => (0, p)) else [])
    ++ s.walkPackets die router ++ s.mgtPackets die router

/-- Flit buffers of an input port that every class shares (R306). -/
def sharedBuffers : Nat := 26

/-- Where a packet comes to stand among the others at its router: it takes shared buffers for all its flits at once or
waits; after 64 fabric cycles at the port, or where no shared buffer is free, it moves to its class's escape channel while no
other holds it; one of class RSP waits for no buffer of another class (R305, R306). -/
def Buffered.settle (b : Buffered) (now : Nat) (others : List Buffered) : Buffered :=
  let near := others.filter (fun o => o.port = b.port)
  let used := ((near.filter (fun o => o.place == .shared)).map (·.packet.flits)).foldl (· + ·) 0
  let fits := used + b.packet.flits ≤ sharedBuffers
  let late := b.since + 64 * fabric ≤ now
  let full := sharedBuffers ≤ used || (b.packet.cls == .rsp && !fits)
  let free := near.all (fun o => o.place != .escape || o.packet.cls != b.packet.cls)
  match b.place with
  | .escape => b
  | .shared => if late && free then { b with place := .escape } else b
  | .waiting =>
    if (late || full) && free then { b with place := .escape }
    else if fits then { b with place := .shared }
    else b

/-- Every packet of a list settled, in the order they came. -/
def settleBuffers (now : Nat) (done : List Buffered) : List Buffered → List Buffered
  | [] => done
  | b :: r => settleBuffers now (done ++ [b.settle now (done ++ r)]) r

/-- The packets a router has held that are still there, then those that have come. -/
def Router.arrived (r : Router) (now : Nat) (here : List (Nat × Packet)) : List Buffered :=
  let kept := r.held.filter (fun b => here.contains (b.port, b.packet))
  kept ++ (here.filter (fun e => kept.all (fun b => (b.port, b.packet) != e))).map
    (fun e => { port := e.1, packet := e.2, since := now, place := .waiting })

/-- ESCAPE_TIMEOUT (R306): the packets at a router's ports take buffers, and those that have waited 64 fabric cycles, or find
no shared buffer, the escape channel of their class. -/
def execEscapeTimeout (die router : Nat) (s : State) : Answer :=
  let r := (s.die die).router router
  if !routerOk die router then .next s
  else .next (s.setRouter die router { r with
    held := settleBuffers s.time [] (r.arrived s.time (s.packetsAt die router)) })

/-- ROUTER_POWER_DOWN (R308): a router that has carried no flit for 512 fabric cycles. -/
def execRouterPowerDown (die router : Nat) (s : State) : Answer :=
  let r := (s.die die).router router
  if !routerOk die router || r.down || !(s.packetsAt die router).isEmpty || s.time < r.idleFrom + 512 * fabric then .next s
  else .next (s.setRouter die router { r with down := true, downAt := s.time })

/-- ROUTER_WAKE (R308): a packet approaches, and the router is up 24 fabric cycles later; one that went down in this cycle
stays up, and one that is up does not go down in it. -/
def execRouterWake (die router : Nat) (s : State) : Answer :=
  let r := (s.die die).router router
  if !routerOk die router then .next s
  else if !r.down then .next (s.carry die router)
  else
    let same := r.downAt / fabric = s.time / fabric
    .next (s.setRouter die router { r with
      down := false, idleFrom := s.time, upAt := if same then s.time else s.time + 24 * fabric })

end Sys2Proof.Machine
end

