-- ==== Sys2Proof/Machine/Retire.lean ====
section
/-!
DEFINITION. Lane groups and Airufold ports that are retired, the links and routes lost with them, and the collectives that
end for it (R310, R361, R397 to R400, R404, R405, R409).
-/
namespace Sys2Proof.Machine

/-! ### Lane groups (R398, R400) -/

/-- A link lost (R361, R398, R405): contexts with an access lost on it end, of both partitions where it is a boundary
link, and a partition it held together is reset. -/
def State.loseLink (s : State) (link : Nat) : State :=
  let s := s.loseOver link
  let s := match s.partOf (linkEnds link).1 with
    | some p => if (s.link link).boundary then s else s.checkWhole p
    | none => s
  (List.range 4).foldl (fun s p => (s.settleColls p).serveWaiting p) s

/-- Whether a direction has no healthy group: none carries it and none turns toward it (R398). -/
def Link.bare (l : Link) (up : Bool) : Bool :=
  (l.carrying up).isEmpty && (match l.turning with | some t => t.up != up | none => true)

/-- A lane group retired (R398, R400): a turn of it ends, its record is written, and a direction left with no healthy
group loses the link. -/
def State.retireGroup (s : State) (link g : Nat) : State :=
  let l := s.link link
  let l := { l with retired := l.retired ||| (1#16 <<< g),
                    turning := if l.isTurning g then none else l.turning }
  let lost := !l.closed && (l.bare true || l.bare false)
  let s := s.setLink link { l with closed := l.closed || lost }
  let s := s.correctedRecord (linkEnds link).1 6 0x0E (g + 1) link 0
  if lost then s.loseLink link else s

/-- GROUP_DRAIN_END (R310, R400). -/
def execGroupDrainEnd (link : Nat) (failed : Bool) (s : State) : Answer :=
  let l := s.link link
  match l.turning with
  | some t =>
    match t.phase with
    | .drain =>
      if failed then .next ((s.retireGroup link t.group).serve link 9)
      else .next (s.setLink link { l with turning := some { t with phase := .dead (s.time + 24 * 168) } })
    | .dead _ => .next s
  | none => .next s

/-- DEAD_TIME_END (R310, R312, R400). -/
def execDeadTimeEnd (link : Nat) (failed : Bool) (s : State) : Answer :=
  let l := s.link link
  match l.turning with
  | some t =>
    match t.phase with
    | .drain => .next s
    | .dead at_ =>
      if s.time < at_ then .next s
      else if failed then .next ((s.retireGroup link t.group).serve link 9)
      else
        let bit : BitVec 16 := 1#16 <<< t.group
        let s := s.setLink link { l with turning := none, up := if t.up then l.up ||| bit else l.up &&& ~~~bit,
                                         dwell := nset l.dwell t.group (at_ + 2 * tickUs) }
        .next (s.serve link 9)
  | none => .next s

/-! ### Airufold ports (R26, R321, R398, R399, R409) -/

/-- A port retired: its records are written, and the collectives that it cuts off end (R409). -/
def State.retirePort (s : State) (port : Nat) : State :=
  if 32 ≤ port || (s.portRetired port).isSome then s
  else
    let die := iodDie (port / 8)
    let s := { s with ports := nset s.ports port { retiredAt := some s.time } }
    let s := s.correctedRecord die 9 0x0F 1 port 0
    match s.partOf die with
    | some p => (s.emit p { s.blankRecord 0xA6 0 (srcBits die 0 0 0 9) with val := BitVec.ofNat 64 port }).settleColls p
    | none => s

/-- AIRUFOLD_PORT_RETIRE (R409). -/
def execAirufoldPortRetire (port : Nat) (s : State) : Answer := .next (s.retirePort port)

/-- LINK_REPLAY (R397 to R399): replays are counted; 16 in a row retire the group or the port, and more than 1,000 CRC
errors within a millisecond the group. DESIGN CHOICE, log 37. -/
def execLinkReplay (link : Nat) (port : Bool) (group replays crcErrors : Nat) (s : State) : Answer :=
  if port then
    if 32 ≤ link then .next s
    else
      let s := s.countCorrected (iodDie (link / 8)) 9 0x0F link replays
      .next (if 16 ≤ replays then s.retirePort link else s)
  else if 37 < link || 16 ≤ group then .next s
  else
    let l := s.link link
    let s := s.setLink link { l with crc := nset l.crc group crcErrors }
    let s := s.countCorrected (linkEnds link).1 6 0x0E link replays
    .next (if (16 ≤ replays || 1000 < crcErrors) && !bitOf l.retired group then
      (s.retireGroup link group).serve link 9 else s)

end Sys2Proof.Machine
end

