-- ==== Sys2Proof/Machine/Timeout.lean ====
section
/-!
DEFINITION. Requests to host memory that no completion answers (R408).
-/
namespace Sys2Proof.Machine

/-- A request that a requester has at the host: the requester as it would fail, and how far it has come, which tells one
request of a requester from its next. -/
structure HostAsk where
  waiter : MergeWaiter
  step : Nat
  deriving DecidableEq, Repr

/-- Whether an address lies in host memory, by what its die's L2 TLB holds. -/
def State.atHost (s : State) (die va : Nat) : Bool := (s.heldAt die va).any (fun m => paSpace m.pa = 2)

/-- A request of a requester at an address, where it lies in host memory. -/
def State.askAt (s : State) (die : Nat) (who : Requester) (kind : AccessKind) (va step : Nat) : Option HostAsk :=
  if s.atHost die va then some { waiter := { who := who, kind := kind, va := va, helper := false }, step := step } else none

/-- An access's piece of host memory that has left for it. -/
def State.accessAsk (s : State) (a : Access) : Option HostAsk :=
  (a.pieces.find? (fun p => p.isOpen && p.pa.any (paSpace · = 2) && s.mayPerform a p)).map fun p =>
    { waiter := { who := .access a.id, kind := a.op.kind, va := p.va, helper := p.helper }
      step := (a.pieces.filter (·.isOpen)).length }

/-- The next byte of an engine of a copy that is read from, or written to, host memory. -/
def State.copyAsk (s : State) (die core : Nat) (m : CopyCmd) : Option HostAsk :=
  let who : Requester := .stream die core m.id
  m.engines.findSome? fun e =>
    let w := ngetD m.moved e 0
    let r := w + (ngetD m.ahead e []).length
    let side (read : Bool) (t : Nat) : Option HostAsk :=
      if tlKind (m.side read) = 0 && t < tlTotal (m.side read) then
        s.askAt die who (if read then .read else .write) (m.pos read e t) (2 * (r + w))
      else none
    (side true r).or (side false w)

/-- A ring's descriptor, its next slot or its place in the external stream. -/
def State.ringAsk (s : State) (die core : Nat) (r : RingCmd) : Option HostAsk :=
  let who : Requester := .ring die core r.id
  match (s.unitRead die who r.desc.toNat 64).1 with
  | .bytes l =>
    let at_ (va : Nat) : Option HostAsk := s.askAt die who .read va (ringNrem l)
    (at_ r.desc.toNat).or ((((ringOf l).slot r.prod).bind (fun v => at_ v.toNat)).or
      ((r.external (ringXoff l) 1).findSome? (fun x => at_ x.1)))
  | _ => none

/-- A member's descriptor, the next byte of its source, or its destination once its instance has formed. -/
def State.memberAsk (s : State) (i : CollInst) (m : CollMember) : Option HostAsk :=
  let who : Requester := .coll i.id m.id
  let n := (ngetD i.ahead m.mem []).length
  if i.stub then s.askAt (s.collDie m) who .read m.desc.toNat 0
  else if i.formed then s.askAt (s.collDie m) who .write m.dst.toNat (i.srcLen + 1)
  else s.askAt (s.collDie m) who .read ((m.src.toNat + n) % 2 ^ 64) (n + 1)

/-- What the requester of a number has at the host: an access, a command of a unit or a parked store by its own number, then
launch queues, contexts that start, resume or are saved, and parts that fetch or wait for a slot. DESIGN CHOICE, log
115. -/
def State.hostAsk (s : State) (n : Nat) : Option HostAsk :=
  if 2 ^ 66 ≤ n then
    let c := ctxOfKey ((n - 2 ^ 66) / 2)
    let p : PartRef := .gang c.die c.core c.ctx (n % 2 = 1)
    let t := s.thread p
    match t.waits.findSome? (fun w => match w with | .slotwait d _ _ => some d | _ => none) with
    | some d => s.askAt c.die (.loops p) .read d.toNat t.bundles.toNat
    | none => s.askAt c.die (.fetch p) .fetch t.pc.toNat t.bundles.toNat
  else if 2 ^ 65 ≤ n then
    let c := ctxOfKey (n - 2 ^ 65)
    let x := s.ctx c
    let slot (k : Nat) : Nat := s.slotVa (s.partN c.die) k
    match x.save with
    | .holding _ k | .writing _ k => s.askAt c.die (.saving c) .write (slot k) (x.placedAt + x.stamp)
    | .resuming k => s.askAt c.die (.starting c) .read (slot k) x.placedAt
    | .none => if x.st == .starting then s.askAt c.die (.starting c) .read x.entry.toNat x.placedAt else none
  else if 2 ^ 64 ≤ n then
    let part := (n - 2 ^ 64) / 64
    let q := n % 64
    let x := (s.part part).queue q
    if x.rp = x.wp then none
    else s.askAt (s.firstDie part) (.queue part q) .read (x.base.toNat * 64 + 64 * (x.rp.toNat % 2 ^ x.log2.toNat)) x.rp.toNat
  else match s.acc n with
  | some a => s.accessAsk a
  | none =>
    let core (e : Nat × Core) : Option HostAsk :=
      let d := e.1 / 48
      let c := e.1 % 48
      ((e.2.copies.find? (fun m => m.id = n)).bind (s.copyAsk d c)).or
        (((e.2.allRings.find? (fun r => r.id = n)).bind (s.ringAsk d c)).or
          ((e.2.morq.find? (fun m => m.id = n && m.op == .qcvt 1)).bind fun m =>
            s.askAt d (.mordant d c n) .read m.sa.toNat m.phase))
    let coll (i : CollInst) : Option HostAsk := (i.members.find? (fun m => m.id = n)).bind (s.memberAsk i)
    let gather (e : Nat × Die) : Option HostAsk :=
      (e.2.gq.head?.filter (fun g => g.id = n)).bind fun g => s.askAt e.1 (.ochre e.1 0) .read g.addr.toNat 0
    let parked (p : Nat) : Option HostAsk := ((s.part p).parked.find? (fun k => k.num = n)).bind fun k => match k with
      | .compl _ d _ addr _ _ => s.askAt d (.parked p n) .write addr.toNat 0
      | .batch _ d bin b => ((s.bin d bin).batch b).bind fun x => s.askAt d (.parked p n) .read x.buf.toNat 0
    (s.cores.findSome? core).or ((s.colls.findSome? coll).or ((s.dies.findSome? gather).or ((List.range 4).findSome? parked)))

/-- A request without a completion fails with 0x4B. -/
def State.failAsk (s : State) (w : MergeWaiter) : State :=
  match w.who with
  | .access id => match s.acc id with
    | some a => s.failPieces a (fun p => p.pa.elim false (paSpace · = 2)) 0x4B
    | none => s
  | _ => s.failWaiter (w.va / 65536) w 0x4B

/-- HOST_COMPLETION_TIMEOUT (R408): a request to host memory leaves for it; 50 ms after that, with no completion, it fails. -/
def execHostCompletionTimeout (acc : Nat) (s : State) : Answer :=
  match s.hostAsk acc with
  | none => .next { s with hostSent := nerase s.hostSent acc }
  | some q =>
    match (nget s.hostSent acc).filter (fun e => e.2 = q.step) with
    | none => .next { s with hostSent := nset s.hostSent acc (s.time, q.step) }
    | some e =>
      if s.time < e.1 + 50000 * tickUs then .next s
      else .next (s.unitStep ({ s with hostSent := nerase s.hostSent acc }.failAsk q.waiter))

end Sys2Proof.Machine
end

