-- ==== Sys2Proof/Machine/Dispatch.lean ====
section
/-! DEFINITION. The dispatch: one arm for each constructor of Instr. -/
namespace Sys2Proof.Machine

def exec (i : Instr) (s : State) : Host.Outcome State Fault Refusal :=
  match i with
  | .issueSelect die core => Sys2Proof.Machine.execIssueSelect die core s
  | .bundleIssue p => Sys2Proof.Machine.execBundleIssue p s
  | .bankSwitchQuantum die core slot => Sys2Proof.Machine.execBankSwitchQuantum die core slot s
  | .contextWake p => Sys2Proof.Machine.execContextWake p s
  | .startingComplete die core ctx => Sys2Proof.Machine.execStartingComplete die core ctx s
  | .contextRetire die core ctx => Sys2Proof.Machine.execContextRetire die core ctx s
  | .add d a b l => Sys2Proof.Machine.execAdd d a b l s
  | .sub d a b l => Sys2Proof.Machine.execSub d a b l s
  | .mul d a b l => Sys2Proof.Machine.execMul d a b l s
  | .mulh d a b l => Sys2Proof.Machine.execMulh d a b l s
  | .mulhn d a b l => Sys2Proof.Machine.execMulhn d a b l s
  | .div d a b l => Sys2Proof.Machine.execDiv d a b l s
  | .divn d a b l => Sys2Proof.Machine.execDivn d a b l s
  | .rem d a b l => Sys2Proof.Machine.execRem d a b l s
  | .remn d a b l => Sys2Proof.Machine.execRemn d a b l s
  | .and d a b l => Sys2Proof.Machine.execAnd d a b l s
  | .or d a b l => Sys2Proof.Machine.execOr d a b l s
  | .xor d a b l => Sys2Proof.Machine.execXor d a b l s
  | .shl d a b l => Sys2Proof.Machine.execShl d a b l s
  | .shr d a b l => Sys2Proof.Machine.execShr d a b l s
  | .sha d a b l => Sys2Proof.Machine.execSha d a b l s
  | .clz d a => Sys2Proof.Machine.execClz d a s
  | .popc d a => Sys2Proof.Machine.execPopc d a s
  | .min d a b l => Sys2Proof.Machine.execMin d a b l s
  | .max d a b l => Sys2Proof.Machine.execMax d a b l s
  | .minn d a b l => Sys2Proof.Machine.execMinn d a b l s
  | .maxn d a b l => Sys2Proof.Machine.execMaxn d a b l s
  | .sel d a b l => Sys2Proof.Machine.execSel d a b l s
  | .cmpeq d a b l => Sys2Proof.Machine.execCmpeq d a b l s
  | .cmpne d a b l => Sys2Proof.Machine.execCmpne d a b l s
  | .cmplt d a b l => Sys2Proof.Machine.execCmplt d a b l s
  | .cmple d a b l => Sys2Proof.Machine.execCmple d a b l s
  | .cmpltn d a b l => Sys2Proof.Machine.execCmpltn d a b l s
  | .cmplen d a b l => Sys2Proof.Machine.execCmplen d a b l s
  | .movl d l => Sys2Proof.Machine.execMovl d l s
  | .movlD d l => Sys2Proof.Machine.execMovlD d l s
  | .lea d a b l n => Sys2Proof.Machine.execLea d a b l n s
  | .addi d a imm => Sys2Proof.Machine.execAddi d a imm s
  | .andi d a imm => Sys2Proof.Machine.execAndi d a imm s
  | .ori d a imm => Sys2Proof.Machine.execOri d a imm s
  | .xori d a imm => Sys2Proof.Machine.execXori d a imm s
  | .shli d a n => Sys2Proof.Machine.execShli d a n s
  | .shri d a n => Sys2Proof.Machine.execShri d a n s
  | .shai d a n => Sys2Proof.Machine.execShai d a n s
  | .cmplti d a imm => Sys2Proof.Machine.execCmplti d a imm s
  | .ldb d a la o => Sys2Proof.Machine.execLdb d a la o s
  | .ldh d a la o => Sys2Proof.Machine.execLdh d a la o s
  | .ldw d a la o => Sys2Proof.Machine.execLdw d a la o s
  | .ldd d a la o => Sys2Proof.Machine.execLdd d a la o s
  | .ldbs d a la o => Sys2Proof.Machine.execLdbs d a la o s
  | .ldhs d a la o => Sys2Proof.Machine.execLdhs d a la o s
  | .ldws d a la o => Sys2Proof.Machine.execLdws d a la o s
  | .loadAcquire d a la sc sz o => Sys2Proof.Machine.execLoadAcquire d a la sc sz o s
  | .stb d a la o => Sys2Proof.Machine.execStb d a la o s
  | .sth d a la o => Sys2Proof.Machine.execSth d a la o s
  | .stw d a la o => Sys2Proof.Machine.execStw d a la o s
  | .std d a la o => Sys2Proof.Machine.execStd d a la o s
  | .storeRelease d a la sc sz o => Sys2Proof.Machine.execStoreRelease d a la sc sz o s
  | .amoadd d a b la sc o z => Sys2Proof.Machine.execAmoadd d a b la sc o z s
  | .amofadd d a b la sc o z => Sys2Proof.Machine.execAmofadd d a b la sc o z s
  | .amoand d a b la sc o z => Sys2Proof.Machine.execAmoand d a b la sc o z s
  | .amoor d a b la sc o z => Sys2Proof.Machine.execAmoor d a b la sc o z s
  | .amoxor d a b la sc o z => Sys2Proof.Machine.execAmoxor d a b la sc o z s
  | .amomin d a b la sc o z => Sys2Proof.Machine.execAmomin d a b la sc o z s
  | .amomax d a b la sc o z => Sys2Proof.Machine.execAmomax d a b la sc o z s
  | .amominn d a b la sc o z => Sys2Proof.Machine.execAmominn d a b la sc o z s
  | .amomaxn d a b la sc o z => Sys2Proof.Machine.execAmomaxn d a b la sc o z s
  | .amoswp d a b la sc o z => Sys2Proof.Machine.execAmoswp d a b la sc o z s
  | .amocas d a b la sc o z => Sys2Proof.Machine.execAmocas d a b la sc o z s
  | .fence sc => Sys2Proof.Machine.execFence sc s
  | .fencex y x sc => Sys2Proof.Machine.execFencex y x sc s
  | .br t => Sys2Proof.Machine.execBr t s
  | .brl t => Sys2Proof.Machine.execBrl t s
  | .bz a t => Sys2Proof.Machine.execBz a t s
  | .bnz a t => Sys2Proof.Machine.execBnz a t s
  | .buk k t => Sys2Proof.Machine.execBuk k t s
  | .bunk k t => Sys2Proof.Machine.execBunk k t s
  | .bdk k j t => Sys2Proof.Machine.execBdk k j t s
  | .bdkLong k j t => Sys2Proof.Machine.execBdkLong k j t s
  | .bdnk k j t => Sys2Proof.Machine.execBdnk k j t s
  | .bdnkLong k j t => Sys2Proof.Machine.execBdnkLong k j t s
  | .loop a t => Sys2Proof.Machine.execLoop a t s
  | .loops a t => Sys2Proof.Machine.execLoops a t s
  | .jr a => Sys2Proof.Machine.execJr a s
  | .jrl d a => Sys2Proof.Machine.execJrl d a s
  | .rdfirst d n => Sys2Proof.Machine.execRdfirst d n s
  | .rdlane d n b l => Sys2Proof.Machine.execRdlane d n b l s
  | .movam d => Sys2Proof.Machine.execMovam d s
  | .setam b l => Sys2Proof.Machine.execSetam b l s
  | .lstr d b l => Sys2Proof.Machine.execLstr d b l s
  | .lbrk b l => Sys2Proof.Machine.execLbrk b l s
  | .bararv n => Sys2Proof.Machine.execBararv n s
  | .barwt n => Sys2Proof.Machine.execBarwt n s
  | .waitc c b l => Sys2Proof.Machine.execWaitc c b l s
  | .yield b l => Sys2Proof.Machine.execYield b l s
  | .yieldTimeout die core ctx => Sys2Proof.Machine.execYieldTimeout die core ctx s
  | .continuationTake die core ctx => Sys2Proof.Machine.execContinuationTake die core ctx s
  | .slotwait d a sc side => Sys2Proof.Machine.execSlotwait d a sc side s
  | .slotwaitRecheck die core ctx => Sys2Proof.Machine.execSlotwaitRecheck die core ctx s
  | .slotsig a sc side => Sys2Proof.Machine.execSlotsig a sc side s
  | .nop => Sys2Proof.Machine.execNop s
  | .trap n => Sys2Proof.Machine.execTrap n s
  | .rte => Sys2Proof.Machine.execRte s
  | .csrr d c => Sys2Proof.Machine.execCsrr d c s
  | .csrw a c => Sys2Proof.Machine.execCsrw a c s
  | .csrs d a c => Sys2Proof.Machine.execCsrs d a c s
  | .csrc d a c => Sys2Proof.Machine.execCsrc d a c s
  | .ldcwt d a => Sys2Proof.Machine.execLdcwt d a s
  | .ldcwtLoadDone die core ctx => Sys2Proof.Machine.execLdcwtLoadDone die core ctx s
  | .lkfetch d a n => Sys2Proof.Machine.execLkfetch d a n s
  | .lkdedup d a => Sys2Proof.Machine.execLkdedup d a s
  | .lkdedupClear d a => Sys2Proof.Machine.execLkdedupClear d a s
  | .lkpool d a b o w => Sys2Proof.Machine.execLkpool d a b o w s
  | .lkhand a b t => Sys2Proof.Machine.execLkhand a b t s
  | .mset a b n => Sys2Proof.Machine.execMset a b n s
  | .mloop a b n => Sys2Proof.Machine.execMloop a b n s
  | .mtern a b n => Sys2Proof.Machine.execMtern a b n s
  | .qres a b z n => Sys2Proof.Machine.execQres a b z n s
  | .qcvt a b w n => Sys2Proof.Machine.execQcvt a b w n s
  | .qprune a b n => Sys2Proof.Machine.execQprune a b n s
  | .qrel n => Sys2Proof.Machine.execQrel n s
  | .cpyset a b n => Sys2Proof.Machine.execCpyset a b n s
  | .cpy a b g n => Sys2Proof.Machine.execCpy a b g n s
  | .cpyy a b j g n => Sys2Proof.Machine.execCpyy a b j g n s
  | .ringset a b sc side n => Sys2Proof.Machine.execRingset a b sc side n s
  | .gthrSp a b => Sys2Proof.Machine.execGthrSp a b s
  | .gthrOb a b n => Sys2Proof.Machine.execGthrOb a b n s
  | .coll a b => Sys2Proof.Machine.execColl a b s
  | .turn a b la => Sys2Proof.Machine.execTurn a b la s
  | .linkst a la => Sys2Proof.Machine.execLinkst a la s
  | .nodeset a b n => Sys2Proof.Machine.execNodeset a b n s
  | .nodeput a b la n => Sys2Proof.Machine.execNodeput a b la n s
  | .launch a b la => Sys2Proof.Machine.execLaunch a b la s
  | .vadd cl f => Sys2Proof.Machine.execVadd cl f s
  | .vsub cl f => Sys2Proof.Machine.execVsub cl f s
  | .vmul cl f => Sys2Proof.Machine.execVmul cl f s
  | .vfma cl f => Sys2Proof.Machine.execVfma cl f s
  | .vfms cl f => Sys2Proof.Machine.execVfms cl f s
  | .vfnma cl f => Sys2Proof.Machine.execVfnma cl f s
  | .vmin cl f => Sys2Proof.Machine.execVmin cl f s
  | .vmax cl f => Sys2Proof.Machine.execVmax cl f s
  | .vabs cl f => Sys2Proof.Machine.execVabs cl f s
  | .vneg cl f => Sys2Proof.Machine.execVneg cl f s
  | .vmov cl f => Sys2Proof.Machine.execVmov cl f s
  | .vsel cl f => Sys2Proof.Machine.execVsel cl f s
  | .vcmpeq cl f => Sys2Proof.Machine.execVcmpeq cl f s
  | .vcmplt cl f => Sys2Proof.Machine.execVcmplt cl f s
  | .vcmple cl f => Sys2Proof.Machine.execVcmple cl f s
  | .vand cl f => Sys2Proof.Machine.execVand cl f s
  | .vor cl f => Sys2Proof.Machine.execVor cl f s
  | .vxor cl f => Sys2Proof.Machine.execVxor cl f s
  | .vnot cl f => Sys2Proof.Machine.execVnot cl f s
  | .vshl cl f => Sys2Proof.Machine.execVshl cl f s
  | .vshr cl f => Sys2Proof.Machine.execVshr cl f s
  | .vsha cl f => Sys2Proof.Machine.execVsha cl f s
  | .vcvt cl f => Sys2Proof.Machine.execVcvt cl f s
  | .vclamp cl f => Sys2Proof.Machine.execVclamp cl f s
  | .vbcast cl f => Sys2Proof.Machine.execVbcast cl f s
  | .viota cl f => Sys2Proof.Machine.execViota cl f s
  | .vrsum cl f => Sys2Proof.Machine.execVrsum cl f s
  | .vcsum cl f => Sys2Proof.Machine.execVcsum cl f s
  | .vrmax cl f => Sys2Proof.Machine.execVrmax cl f s
  | .vcmax cl f => Sys2Proof.Machine.execVcmax cl f s
  | .vtrn cl f => Sys2Proof.Machine.execVtrn cl f s
  | .lds f => Sys2Proof.Machine.execLds f s
  | .sts f => Sys2Proof.Machine.execSts f s
  | .ldg f => Sys2Proof.Machine.execLdg f s
  | .stg f => Sys2Proof.Machine.execStg f s
  | .ldo f => Sys2Proof.Machine.execLdo f s
  | .sto f => Sys2Proof.Machine.execSto f s
  | .gath f => Sys2Proof.Machine.execGath f s
  | .scat f => Sys2Proof.Machine.execScat f s
  | .scadd f => Sys2Proof.Machine.execScadd f s
  | .vatom f => Sys2Proof.Machine.execVatom f s
  | .xcp f => Sys2Proof.Machine.execXcp f s
  | .qxch f => Sys2Proof.Machine.execQxch f s
  | .gshf f => Sys2Proof.Machine.execGshf f s
  | .gred f => Sys2Proof.Machine.execGred f s
  | .gscan f => Sys2Proof.Machine.execGscan f s
  | .gseg f => Sys2Proof.Machine.execGseg f s
  | .confd f => Sys2Proof.Machine.execConfd f s
  | .vrcp f => Sys2Proof.Machine.execVrcp f s
  | .vsqrt f => Sys2Proof.Machine.execVsqrt f s
  | .vrsq f => Sys2Proof.Machine.execVrsq f s
  | .vexp2 f => Sys2Proof.Machine.execVexp2 f s
  | .vlog2 f => Sys2Proof.Machine.execVlog2 f s
  | .eext f => Sys2Proof.Machine.execEext f s
  | .eins f => Sys2Proof.Machine.execEins f s
  | .eadd f => Sys2Proof.Machine.execEadd f s
  | .esub f => Sys2Proof.Machine.execEsub f s
  | .emul f => Sys2Proof.Machine.execEmul f s
  | .emov f => Sys2Proof.Machine.execEmov f s
  | .ecmp f => Sys2Proof.Machine.execEcmp f s
  | .anyk f => Sys2Proof.Machine.execAnyk f s
  | .allk f => Sys2Proof.Machine.execAllk f s
  | .setsh f => Sys2Proof.Machine.execSetsh f s
  | .globalLoadSectorLand acc piece early => Sys2Proof.Machine.execGlobalLoadSectorLand acc piece early s
  | .storePerformAtHome acc piece => Sys2Proof.Machine.execStorePerformAtHome acc piece s
  | .storeAck acc => Sys2Proof.Machine.execStoreAck acc s
  | .atomicReturn acc => Sys2Proof.Machine.execAtomicReturn acc s
  | .walkComplete die entry => Sys2Proof.Machine.execWalkComplete die entry s
  | .mergeEntryRetry die => Sys2Proof.Machine.execMergeEntryRetry die s
  | .faultAnswerRetry part token => Sys2Proof.Machine.execFaultAnswerRetry part token s
  | .faultAnswerFail part token => Sys2Proof.Machine.execFaultAnswerFail part token s
  | .tlbInvalidate part v => Sys2Proof.Machine.execTlbInvalidate part v s
  | .tlbInvalidateDone part => Sys2Proof.Machine.execTlbInvalidateDone part s
  | .matrixCommandStart die core => Sys2Proof.Machine.execMatrixCommandStart die core s
  | .matrixKstepDone die core => Sys2Proof.Machine.execMatrixKstepDone die core s
  | .predictionWake p => Sys2Proof.Machine.execPredictionWake p s
  | .mordantCommandRun die core => Sys2Proof.Machine.execMordantCommandRun die core s
  | .copyStart die core => Sys2Proof.Machine.execCopyStart die core s
  | .copyComplete die core run => Sys2Proof.Machine.execCopyComplete die core run s
  | .ringSlotServe die core ring => Sys2Proof.Machine.execRingSlotServe die core ring s
  | .gatherRequestStart die => Sys2Proof.Machine.execGatherRequestStart die s
  | .lkfetchLand acc => Sys2Proof.Machine.execLkfetchLand acc s
  | .ochreThreadEnd die idx => Sys2Proof.Machine.execOchreThreadEnd die idx s
  | .collInstanceForm run => Sys2Proof.Machine.execCollInstanceForm run s
  | .collComplete inst member => Sys2Proof.Machine.execCollComplete inst member s
  | .turnService link => Sys2Proof.Machine.execTurnService link s
  | .groupDrainEnd link failed => Sys2Proof.Machine.execGroupDrainEnd link failed s
  | .deadTimeEnd link failed => Sys2Proof.Machine.execDeadTimeEnd link failed s
  | .dwellEnd link group => Sys2Proof.Machine.execDwellEnd link group s
  | .turnBudgetWindow => Sys2Proof.Machine.execTurnBudgetWindow s
  | .autoWindowEnd link busyUp busyDown => Sys2Proof.Machine.execAutoWindowEnd link busyUp busyDown s
  | .autoEntry link => Sys2Proof.Machine.execAutoEntry link s
  | .binAccept die bin => Sys2Proof.Machine.execBinAccept die bin s
  | .binTimerExpire die bin => Sys2Proof.Machine.execBinTimerExpire die bin s
  | .launchQueueTake part q => Sys2Proof.Machine.execLaunchQueueTake part q s
  | .placeGroup part => Sys2Proof.Machine.execPlaceGroup part s
  | .frontEndStarvation part => Sys2Proof.Machine.execFrontEndStarvation part s
  | .preemptCandidate part => Sys2Proof.Machine.execPreemptCandidate part s
  | .preempt part v => Sys2Proof.Machine.execPreempt part v s
  | .hardPreemptBound die core ctx => Sys2Proof.Machine.execHardPreemptBound die core ctx s
  | .saveRecordWrite die core ctx => Sys2Proof.Machine.execSaveRecordWrite die core ctx s
  | .resume die core ctx => Sys2Proof.Machine.execResume die core ctx s
  | .causeArrive die core ctx ext => Sys2Proof.Machine.execCauseArrive die core ctx ext s
  | .faultRecordDrain part => Sys2Proof.Machine.execFaultRecordDrain part s
  | .faultMsix part => Sys2Proof.Machine.execFaultMsix part s
  | .hostPostedWrite part w => Sys2Proof.Machine.execHostPostedWrite part w s
  | .hostNonpostedRequest part r => Sys2Proof.Machine.execHostNonpostedRequest part r s
  | .bar2Access part n => Sys2Proof.Machine.execBar2Access part n s
  | .sysReleaseFlushRead part => Sys2Proof.Machine.execSysReleaseFlushRead part s
  | .indigoSlot die cluster => Sys2Proof.Machine.execIndigoSlot die cluster s
  | .indigoDelivery die cluster => Sys2Proof.Machine.execIndigoDelivery die cluster s
  | .escapeTimeout die router => Sys2Proof.Machine.execEscapeTimeout die router s
  | .routerPowerDown die router => Sys2Proof.Machine.execRouterPowerDown die router s
  | .routerWake die router => Sys2Proof.Machine.execRouterWake die router s
  | .linkReplay link port group replays crcErrors => Sys2Proof.Machine.execLinkReplay link port group replays crcErrors s
  | .airufoldPortRetire port => Sys2Proof.Machine.execAirufoldPortRetire port s
  | .dieContain die why => Sys2Proof.Machine.execDieContain die why s
  | .dieWatchdog die => Sys2Proof.Machine.execDieWatchdog die s
  | .dieReadmit die stepFailed => Sys2Proof.Machine.execDieReadmit die stepFailed s
  | .pcieLinkDown part => Sys2Proof.Machine.execPcieLinkDown part s
  | .hostCompletionTimeout acc => Sys2Proof.Machine.execHostCompletionTimeout acc s
  | .memoryScrub line found => Sys2Proof.Machine.execMemoryScrub line found s
  | .correctedErrorRecord die array index => Sys2Proof.Machine.execCorrectedErrorRecord die array index s
  | .evictionError line => Sys2Proof.Machine.execEvictionError line s
  | .bringupStage e => Sys2Proof.Machine.execBringupStage e s
  | .gateUpdate env => Sys2Proof.Machine.execGateUpdate env s
  | .dieThermalHold die => Sys2Proof.Machine.execDieThermalHold die s
  | .partitionForm plan => Sys2Proof.Machine.execPartitionForm plan s
  | .lqcfgWrite part q v => Sys2Proof.Machine.execLqcfgWrite part q v s
  | .lqbaseWrite part q v => Sys2Proof.Machine.execLqbaseWrite part q v s
  | .lqwpWrite part q v => Sys2Proof.Machine.execLqwpWrite part q v s
  | .fqcfgWrite part v => Sys2Proof.Machine.execFqcfgWrite part v s
  | .fqrpWrite part v => Sys2Proof.Machine.execFqrpWrite part v s
  | .imginv part v => Sys2Proof.Machine.execImginv part v s
  | .imginvDone part => Sys2Proof.Machine.execImginvDone part s
  | .featackWrite part hi v => Sys2Proof.Machine.execFeatackWrite part hi v s
  | .pwrcapWrite part v => Sys2Proof.Machine.execPwrcapWrite part v s
  | .diectlWrite part v => Sys2Proof.Machine.execDiectlWrite part v s
  | .attctlGo part v => Sys2Proof.Machine.execAttctlGo part v s
  | .attestDone part => Sys2Proof.Machine.execAttestDone part s
  | .mgmtRegisterWrite part off v => Sys2Proof.Machine.execMgmtRegisterWrite part off v s
  | .powerGood => Sys2Proof.Machine.execPowerGood s
  | .pcieLinkTrained part => Sys2Proof.Machine.execPcieLinkTrained part s
  | .airufoldRouteGiveUp port acc => Sys2Proof.Machine.execAirufoldRouteGiveUp port acc s
  | .fansIgnoredWrite part v => Sys2Proof.Machine.execFansIgnoredWrite part v s
  | .airufoldInboundRequest r => Sys2Proof.Machine.execAirufoldInboundRequest r s

end Sys2Proof.Machine
end

