-- ==== Sys2Proof/Machine/Step.lean ====
section
/-!
DEFINITION. One step of the module, and a state in which the next step fetches and runs a given word.
-/
namespace Sys2Proof.Machine

/-- The step that comes by itself when the schedule names none: the focus core's issue cycle, or the bundle of the
focus Ochre core. -/
def State.ownStep (s : State) : Instr :=
  match s.focus with
  | .gang d c _ _ => .issueSelect d c
  | .ochre d i => .bundleIssue (.ochre d i)

/-- An answer one arithmetic-clock cycle later. -/
def afterCycle : Host.Outcome State Fault Refusal → Host.Outcome State Fault Refusal
  | .next s => .next { s with time := s.time + 80 }
  | o => o

/-- One step (log 1): the schedule's next entry after its ticks, else the focus core's own cycle; nothing more happens
to a module whose bring-up failed (R325). -/
def step (s : State) : Host.Outcome State Fault Refusal :=
  match s.agenda with
  | i :: r => exec i.step { s with time := s.time + i.dt, agenda := r }
  | [] => if s.stage = 15 then .fault .bringUpFailed else afterCycle (exec s.ownStep s)

/-! ### A word placed where the next step fetches (log 6) -/

/-- The leaf that maps the one code page: valid, readable, executable, page frame 1 of die 0 (R244). -/
def codeLeaf : Word := 0x10017

/-- The translation of the code page. -/
def codeEntry : TlbEntry := { vbase := 65536, size := 65536, leaf := codeLeaf }

/-- The bundle of a word: a header with one word and four literals, all zero (R79). -/
def bundleOf (w : Nat) : List Byte := toBytes 4 0x00420000 ++ toBytes 4 w ++ toBytes 16 0

/-- A launch record that declares all a core has. -/
def wholeRecord : LaunchRecord :=
  { LaunchRecord.zero with lanes := 16, regA := 64, regB := 64, acc := 8, spad := 262144, osbB := 65536, osbR := 8,
                           gsize := 1, nprog := 1 }

/-- Context 0 with that program, at the bundle. -/
def Context.atBundle (x : Context) : Context :=
  { x with st := .ready, lrec := wholeRecord, lm := 0xFFFF, main := { x.main with pc := 0x10000, am := 0xFFFF } }

/-- A gather request whose thread runs the bundle. -/
def codeRequest : GatherReq :=
  { id := 0, by_ := { ctx := ⟨0, 0, 0⟩, spare := false, pc := 0, at_ := 0, inHandler := false }, eng := 0, addr := 0,
    dst := 0, ob := none, obN := 0 }

/-- Whether a word is one only an Ochre core runs (R97). -/
def wordOnOchre (w : Nat) : Bool := 0x0A ≤ w >>> 26 % 64 && w >>> 26 % 64 ≤ 0x0D

/-- The state with the instruction stored where step fetches its next one: the module ready, die 0 in partition 0,
the code page mapped, and a program (or for an LK word a thread of Ochre core 0) at it. -/
def State.withFetchWord (s : State) (nbits w : Nat) : State :=
  let w := w % 2 ^ nbits
  let d := { s.die 0 with inReset := false, status := .running, l2tlb := [codeEntry], merge := [], gate := 255 }
  let s := { s with stage := 5, powerGood := true, agenda := [], mem := s.mem.write 65536 (bundleOf w) }
  let s := s.setPart 0 { s.part 0 with formed := true, dies := 1 }
  let s := s.setCore 0 0 { s.core 0 0 with tlb := [codeEntry], icache := [], issuing := [], lastIssue := [] }
  let s := s.setCtx ⟨0, 0, 0⟩ (s.ctx ⟨0, 0, 0⟩).atBundle
  if wordOnOchre w then
    { s.setDie 0 { d with ochre := nset d.ochre 0 { Ochre.zero with
        req := some codeRequest, thread := { Thread.zero with pc := 0x10000 } } } with focus := .ochre 0 0 }
  else { s.setDie 0 d with focus := .gang 0 0 0 false }

end Sys2Proof.Machine
end

