-- ==== Sys2Proof/Safety.lean ====
section
/-!
DEFINITION. What the claims speak in: the form of memory that every step keeps, what one instruction may change and
what it leaves alone, and what a bundle in course of issue must name.
-/
namespace Sys2Proof.Machine

/-- Memory is in its canonical form. -/
def State.Canonical (s : State) : Prop := s.mem.wf

/-- The bundle being issued names a part that exists: a spare half only where its gang is split. -/
def State.issuerOk (s : State) : Bool :=
  s.issue.part.ok && (match s.issue.part with
    | .gang d c x true => (s.ctx ⟨d, c, x⟩).spare.isSome
    | _ => true)

/-- The same, and the part is a gang's or a half's, not an Ochre thread. -/
def State.gangOk (s : State) : Bool := s.issuerOk && !s.onOchre

/-- The same, and the part is a whole gang. -/
def State.wholeOk (s : State) : Bool := s.gangOk && !s.inHalf

/-- A context without its threads. -/
def Context.shell (x : Context) : Context := { x with main := .zero, spare := x.spare.map (fun _ => .zero) }

/-- A context without its threads, its scheduling state and its wait counters: the registers of its program. -/
def Context.program (x : Context) : Context := { x.shell with st := .empty, stamp := 0, blockedAt := 0, wc := [] }

/-- Every thread but the issuing part's is as it was. -/
def State.KeepsOthers (s t : State) : Prop :=
  ∀ q : PartRef, q.ok = true → q ≠ s.issue.part → t.thread q = s.thread q

/-- The frame of a word that writes its own part's thread alone: no other thread, no register outside the threads, no
byte of memory, no unit and no other piece of the module changes. -/
structure State.OnlyThread (s t : State) : Prop where
  others : s.KeepsOthers t
  contexts : ∀ r, (t.ctx r).shell = (s.ctx r).shell
  ochres : ∀ d i, { t.ochre d i with thread := .zero } = { s.ochre d i with thread := .zero }
  dies : ∀ d, { t.die d with ochre := [] } = { s.die d with ochre := [] }
  rest : { t with ctxs := s.ctxs, dies := s.dies } = s

/-- One scalar register of the issuing part takes a value, s0 none, and nothing else changes. -/
structure State.RegisterResult (s t : State) (d : Nat) (v : Word) : Prop where
  only : s.OnlyThread t
  thread : { t.thr with regs := s.thr.regs } = s.thr
  regs : ∀ n, t.thr.reg n = if n = d ∧ n ≠ 0 then v else s.thr.reg n

/-- The instruction completes by writing a value to a register, and does nothing else. -/
def Writes (i : Instr) (s : State) (d : BitVec 5) (v : Word) : Prop :=
  ∃ t, exec i s = .next t ∧ s.RegisterResult t d.toNat v

/-- The instruction completes by leaving its part's thread as given, and does nothing else. -/
def Leaves (i : Instr) (s : State) (x : Thread) : Prop :=
  ∃ t, exec i s = .next t ∧ s.OnlyThread t ∧ t.thr = x

/-- The instruction completes with its part's thread as given and the bundle's transfer taken, and does nothing else. -/
def Transfers (i : Instr) (s : State) (x : Thread) : Prop :=
  ∃ t, exec i s = .next t ∧ s.OnlyThread { t with issue := s.issue } ∧ t.issue = { s.issue with taken := true } ∧ t.thr = x

/-- The instruction completes by pushing a loop level, the bundle's transfer taken, and does nothing else. -/
def Pushes (i : Instr) (s : State) (x : Thread) : Prop :=
  ∃ t, exec i s = .next t ∧ s.OnlyThread { t with issue := s.issue }
    ∧ t.issue = { s.issue with taken := true, pushed := true } ∧ t.thr = x

/-- The bundle being issued is one of a spare half. -/
def State.inSpare (s : State) : Bool := match s.issue.part with | .gang _ _ _ sp => sp | .ochre _ _ => false

/-- A part is at its handler with a cause in TRAPCAUSE, TRAPVAL as given and the bundle in TRAPPC. -/
def State.Trapped (s t : State) (code : BitVec 8) (kind : BitVec 3) (val : Word) : Prop :=
  ∃ h, t.thr.handler = some h ∧ h.code = code ∧ t.thr.trapval = val
    ∧ t.thr.trapcause.extractLsb' 0 8 = code ∧ t.thr.trapcause.extractLsb' 16 3 = kind
    ∧ t.thr.trappc = pcBits s.issue.addr ∧ t.thr.pc = s.tileCtx.handlerAddr

/-- A spare half's cause is on its way to it behind the primary's of the cycle, and the bundle stands at its PC (R356; log
33). -/
def State.TrapComes (s t : State) (code : BitVec 8) (kind : BitVec 3) (val : Word) : Prop :=
  ∃ q : Cause, (t.ctx s.home).inbox = insertCause s.readyAt (true, q) (s.ctx s.home).inbox ∧ q.code = code ∧ q.kind = kind
    ∧ q.val = val ∧ q.pc = s.issue.addr ∧ q.time = s.time ∧ t.thr.pc = s.issue.addr

/-- The instruction traps with a cause. -/
def TrapsWith (i : Instr) (s : State) (code : BitVec 8) (kind : BitVec 3) (val : Word) : Prop :=
  ∃ t, exec i s = .next t ∧ t.mem = s.mem
    ∧ if s.inSpare then s.TrapComes t code kind val else s.Trapped t code kind val

/-- The part can take a trap: a gang part outside a handler, of a live program with a handler, none of whose records is
written always. -/
def State.trapOk (s : State) : Bool :=
  s.gangOk && s.thr.handler.isNone && s.tileCtx.handlerAddr != 0 && s.tileCtx.st != .empty && s.tileCtx.st != .draining

/-- A word of an Ochre thread ends its thread with a cause (R381). -/
def EndsThread (i : Instr) (s : State) (code : BitVec 8) : Prop :=
  ∃ t, exec i s = .next t ∧ t.ochreHere = { s.ochreHere with done := true, fail := some code } ∧ t.mem = s.mem

/-- A misaligned access takes the trap 0x40 with its address where its bundle is checked, in an Ochre thread as that
thread's end (R118, R381). -/
def Misaligned (i : Instr) (s : State) (va : Word) : Prop :=
  s.issue.checked = false → (s.trapOk = true → TrapsWith i s 0x40 0 va) ∧ (s.onOchre = true → EndsThread i s 0x40)

/-- The instruction takes no check again, or passes it. -/
def Passes (i : Instr) (s : State) : Prop := s.issue.checked = true ∨ s.check i = none

/-! ### Accesses begun -/

/-- What an access asks of a piece: its place, its length, its engine and the bytes it carries. -/
def Piece.asks (p : Piece) : Nat × Nat × Nat × Nat × List Byte := (p.va, p.len, p.eng, p.off, p.data)

/-- The frame of a word that begins a global access: beside the access itself, its counter and its lookahead window,
only translation lookaside buffers, merge tables and the waiting of contexts may change; no register of a program, no
scratchpad, no byte of memory does. -/
structure State.OnlyAccess (s t : State) : Prop where
  others : s.KeepsOthers t
  thread : { t.thr with la := s.thr.la } = s.thr
  contexts : ∀ r, (t.ctx r).program = (s.ctx r).program
  ochres : ∀ d i, { t.ochre d i with thread := .zero, wc := [] } = { s.ochre d i with thread := .zero, wc := [] }
  dies : ∀ d, { t.die d with l2tlb := [], merge := [], uses := [], misses := [], ochre := [] }
    = { s.die d with l2tlb := [], merge := [], uses := [], misses := [], ochre := [] }
  cores : ∀ d c, { t.core d c with tlb := [], issuing := [], heldFrom := [], switchedAt := [] }
    = { s.core d c with tlb := [], issuing := [], heldFrom := [], switchedAt := [] }
  rest : { t with ctxs := s.ctxs, dies := s.dies, cores := s.cores, accs := s.accs, nextId := s.nextId } = s

/-- An access the issuing part begins: it takes the next number, counts in a wait counter, opens its lookahead window
unless LA is 15, and stands among the outstanding accesses. -/
structure State.Begins (s t : State) (path : Path) (op : AccessOp) (pieces : List Piece) (acq rel : Option Scope)
    (wc la : Nat) : Prop where
  number : s.nextId < t.nextId
  access : ∃ a ∈ t.accs, a.id = s.nextId ∧ a.who = s.issue.part ∧ a.path = path ∧ a.op = op ∧ a.acq = acq
    ∧ a.rel = rel ∧ a.wc = wc ∧ a.pieces.map Piece.asks = pieces.map Piece.asks
  earlier : t.accs.filter (fun a => a.id != s.nextId) = s.accs.filter (fun a => a.id != s.nextId)
  counter : t.wcOf s.issue.part wc = s.wcOf s.issue.part wc + 1
  window : t.thr.la = if la = 15 then s.thr.la else s.thr.la ++ [{ left := la, target := .access s.nextId }]
  only : s.OnlyAccess t

/-! ### Exposed results -/

/-- The frame of a slot whose result is exposed: only the results its part has on their way, the numbering of
operations and the flags its context gathers change, and no flag is lost. -/
structure State.OnlyResult (s t : State) : Prop where
  others : s.KeepsOthers t
  contexts : ∀ r, { (t.ctx r).shell with arstat := 0 } = { (s.ctx r).shell with arstat := 0 }
  flags : ∀ r, r.ok = true → r ≠ s.home → (t.ctx r).arstat = (s.ctx r).arstat
  gathers : (s.ctx s.home).arstat &&& (t.ctx s.home).arstat = (s.ctx s.home).arstat
  rest : { t with ctxs := s.ctxs, nextId := s.nextId } = s

/-- A result of latency n on its way. -/
structure State.Exposes (s t : State) (n : Nat) (ds : List Dest) : Prop where
  number : t.nextId = s.nextId + 1
  thread : t.thr = { s.thr with pend := s.thr.pend ++ [{ r := n, order := s.nextId, bundle := s.issue.first, dest := ds }] }
  only : s.OnlyResult t

/-- Element k of w bits of a number. -/
def elemAt (w k v : Nat) : Nat := v >>> (k * w) % 2 ^ w

/-- The destinations of a tile result: one for each acting engine, in the register the slot names, over the bytes of
the engine's shape, with the given element of w bits at every position; an engine that is not live keeps its tile. -/
def TileDests (s : State) (cl : Cluster) (f : Slot) (w : Nat) (live : Nat → Bool) (g : Nat → Engine → Nat → Nat)
    (ds : List Dest) : Prop :=
  ds.map Dest.eng = s.acting ∧ ∀ d ∈ ds, ∃ v m, d = .tile d.eng cl (regNum f.dst) v m ∧
    let x := s.tileCtx.engine d.eng
    let bytes := (slotShape x f).1 * (slotShape x f).2
    if live d.eng then m = coverMask bytes ∧ ∀ k, (k + 1) * w ≤ 8 * Nat.min bytes 2048 → elemAt w k v.toNat = g d.eng x k
    else m = 0

/-- The slot completes with a tile result of latency n whose elements are given, and does nothing else. -/
def GivesTile (i : Instr) (s : State) (n : Nat) (cl : Cluster) (f : Slot) (g : Nat → Engine → Nat → Nat) : Prop :=
  ∃ t ds, exec i s = .next t ∧ s.Exposes t n ds ∧ TileDests s cl f (fmtWidth f.fmt.toNat) (fun _ => true) g ds

/-- The same, for the engines that are live. -/
def GivesLive (i : Instr) (s : State) (n : Nat) (f : Slot) (live : Nat → Bool) (g : Nat → Engine → Nat → Nat) : Prop :=
  ∃ t ds, exec i s = .next t ∧ s.Exposes t n ds ∧ TileDests s (slotCluster f) f (fmtWidth f.fmt.toNat) live g ds

/-- The slot completes with tile results given whole: bits and mask of each acting engine. -/
def GivesBits (i : Instr) (s : State) (n : Nat) (cl : Cluster) (f : Slot) (g : Nat → Engine → Nat × TileBits) : Prop :=
  ∃ t, exec i s = .next t ∧ s.Exposes t n (s.acting.map (fun e =>
    .tile e cl (regNum f.dst) (BitVec.ofNat 16384 (g e (s.tileCtx.engine e)).1) (g e (s.tileCtx.engine e)).2))

/-- An integer written in an integer format: clamped with .sat, else its low bits (R68). -/
def narrowed (f : Slot) (i : Int) : Nat :=
  let fm := f.fmt.toNat
  let j := if f.sat = 1 then Max.max (intMin fm) (Min.min (intMax fm) i) else i
  (j % 2 ^ fmtWidth fm).toNat

/-- The slot completes with one engine result of latency 1 for each acting engine, and does nothing else. -/
def GivesEngine (i : Instr) (s : State) (g : Nat → Engine → List Dest) : Prop :=
  ∃ t, exec i s = .next t ∧ s.Exposes t 1 (s.acting.flatMap (fun e => g e (s.tileCtx.engine e)))

/-! ### Events -/

/-- A whole gang's context is BLOCKED in one wait and nothing else keeps it: no page, no save, no pending cause. -/
def State.waitsFor (s : State) (c : CtxRef) (w : Wait) : Bool :=
  let x := s.ctx c
  c.ok && x.st == .blocked && x.spare.isNone && x.save == .none && x.main.waits == [w] && x.main.last.isNone && x.main.late.isNone
    && x.main.causes.isEmpty && !x.main.arrived && !s.pageWait c

/-- It can issue again. -/
def State.awake (s : State) (c : CtxRef) : Bool :=
  ((s.ctx c).st == .ready || (s.ctx c).st == .resident) && (s.ctx c).main.waits.isEmpty

/-- A part that exists: a spare half only where its gang is split. -/
def State.partOk (s : State) (p : PartRef) : Bool :=
  p.ok && (match p with
    | .gang d c x true => (s.ctx ⟨d, c, x⟩).spare.isSome
    | _ => true)

/-- An access is the only one of its number, and its only piece waits, is translated, and may be performed now. -/
structure State.Sole (s : State) (id : Nat) (a : Access) (p : Piece) (pa : Nat) : Prop where
  only : s.accs.filter (fun b => b.id == id) = [a]
  piece : a.pieces = [p]
  waits : p.isOpen = true
  place : p.pa = some pa
  may : s.mayPerform a p = true
  part : s.partOk a.who = true
  index : a.index = none
  kept : a.dropped = false

/-- The access is complete: it is outstanding no more and its counter has fallen by one. -/
structure State.Completes (s t : State) (id : Nat) (a : Access) : Prop where
  gone : ∀ b ∈ t.accs, b.id ≠ id
  counter : t.wcOf a.who a.wc = s.wcOf a.who a.wc - 1

/-- A register of an access's issuer takes a value and no other does: s0 takes none, nor does one that a later word of
the access's bundle has written (R102). -/
def State.Takes (s t : State) (a : Access) (rd : Nat) (v : Word) : Prop :=
  ∀ n, (t.thread a.who).reg n = if n = rd ∧ n ≠ 0 ∧ a.noReg = false then v else (s.thread a.who).reg n

/-- A program that can be told a cause, with none on its way, where a record can be written or held (R359). -/
def State.hears (s : State) (c : CtxRef) : Bool :=
  c.ok && (s.ctx c).st != .empty && (s.ctx c).st != .draining && (s.ctx c).inbox.isEmpty
    && (s.part (s.partN c.die)).holding.length < 64

/-- The issuer of a command has a cause on its way, and no byte of memory changes but those of the record of a cause
that always writes one (R359, R361). -/
structure State.Raises (s t : State) (b : Issuer) (code : BitVec 8) (kind : BitVec 3) (val : Word) (eng unit : Nat) : Prop where
  inbox : (t.ctx b.ctx).inbox = [(b.spare && (s.ctx b.ctx).spare.isSome,
    { b.cause s code kind val eng with unit := unit, recorded := alwaysRecord code })]
  mem : t.mem = (s.recordAlways b.ctx (b.spare && (s.ctx b.ctx).spare.isSome) ((s.ctx b.ctx).handlerAddr = 0 || kind = 4)
    { b.cause s code kind val eng with unit := unit }).mem

/-- Two states differ in one context alone. -/
structure State.OnlyCtx (s t : State) (c : CtxRef) : Prop where
  others : ∀ r, r.ok = true → r ≠ c → t.ctx r = s.ctx r
  rest : { t with ctxs := s.ctxs } = s

/-- Two states differ in one core alone. -/
structure State.OnlyCore (s t : State) (d c : Nat) : Prop where
  others : ∀ d' c', d' < 24 → c' < 48 → (d', c') ≠ (d, c) → t.core d' c' = s.core d' c'
  rest : { t with cores := s.cores } = s

/-- A part is not half of a split gang. -/
def State.unsplit (s : State) (p : PartRef) : Bool :=
  match p.ctx? with
  | some c => (s.ctx c).spare.isNone
  | none => true

/-- The state in which a bundle's words read their operands (R102): the results that were due have landed, the part's
PC has moved on, the bundle is open. -/
def State.atStart (u : State) (p : PartRef) (b : Bundle) : State :=
  ((u.readied p b).openWith p b true u.issue.mem).atWord 1

/-- A part may issue, it stands at no join and owes no cause, the bundle at its PC has one word, which decodes to an
instruction, and no slot; nothing holds it and its checks pass. Its fetch and reads leave the state u. -/
structure State.IssuesAlone (s : State) (p : PartRef) (u : State) (b : Bundle) (w : BitVec 32) (i : Instr) : Prop where
  may : s.canIssue p = true
  uncaused : (s.thread p).owes = false
  settled : s.settled p = s
  fetched : (s.fetchBundle p).1 = .raw b.raw
  decoded : b = (s.fetchBundle p).2.decodeBundle p b.raw
  stands : s.standing p = (.clear b, u)
  single : b.raw.words = [w]
  word : decodeWord w = .ok i
  fate : b.fates = [.ok i]
  slotless : b.slots = []
  checked : u.decodeCheck b = none ∧ (u.readied p b).issueCheck b = none

end Sys2Proof.Machine
end

