-- ==== Sys2Proof/Certificates/Slice0/Obligations.lean ====
section
/-!
DEFINITION. The statements: for every instruction its completion, its result and what it leaves alone, then the
encodings, the step, the state at reset and the invariant of memory.
-/
open Sys2Proof Sys2Proof.Machine

/-- R113, R115: sums, differences and products, the address word among them, wrap at 64 bits; MULH and MULHN give the
high half of the exact signed and unsigned product. -/
def Obligations.SumsAndProducts : Prop :=
  ∀ (s : State) (d a b : BitVec 5) (l : BitVec 3) (n : BitVec 2) (i : BitVec 16), s.issuerOk = true →
    let x := s.rd a
    let y := s.opB b l
    Writes (.add d a b l) s d (BitVec.ofNat 64 (x.toNat + y.toNat)) ∧
    Writes (.sub d a b l) s d (BitVec.ofInt 64 (x.toInt - y.toInt)) ∧
    Writes (.mul d a b l) s d (BitVec.ofNat 64 (x.toNat * y.toNat)) ∧
    Writes (.mulh d a b l) s d (BitVec.ofInt 64 (x.toInt * y.toInt / 2 ^ 64)) ∧
    Writes (.mulhn d a b l) s d (BitVec.ofNat 64 (x.toNat * y.toNat / 2 ^ 64)) ∧
    Writes (.lea d a b l n) s d (BitVec.ofNat 64 (x.toNat + y.toNat * 2 ^ n.toNat)) ∧
    Writes (.addi d a i) s d (BitVec.ofInt 64 (x.toInt + i.toInt))

/-- R114: quotients and remainders with their edge values. -/
def Obligations.Quotients : Prop :=
  ∀ (s : State) (d a b : BitVec 5) (l : BitVec 3), s.issuerOk = true →
    let x := s.rd a
    let y := s.opB b l
    let edge := x.toInt = -2 ^ 63 ∧ y.toInt = -1
    Writes (.div d a b l) s d (if y = 0 then BitVec.allOnes 64 else if edge then x
      else BitVec.ofInt 64 (x.toInt.tdiv y.toInt)) ∧
    Writes (.divn d a b l) s d (if y = 0 then BitVec.allOnes 64 else BitVec.ofNat 64 (x.toNat / y.toNat)) ∧
    Writes (.rem d a b l) s d (if y = 0 then x else if edge then 0 else BitVec.ofInt 64 (x.toInt.tmod y.toInt)) ∧
    Writes (.remn d a b l) s d (if y = 0 then x else BitVec.ofNat 64 (x.toNat % y.toNat))

/-- R113, R115: the bitwise words, bit by bit. R113, R115: shifts by the count's low six bits as products and
quotients by a power of two; CLZ and POPC. -/
def Obligations.BitsAndShifts : Prop :=
  (∀ (s : State) (d a b : BitVec 5) (l : BitVec 3) (i : BitVec 16), s.issuerOk = true →
     let x := s.rd a
     let y := s.opB b l
     let bits (w : Instr) (g : Nat → Bool) : Prop := ∃ v : Word, Writes w s d v ∧ ∀ k, k < 64 → v.getLsbD k = g k
     bits (.and d a b l) (fun k => x.getLsbD k && y.getLsbD k) ∧
     bits (.or d a b l) (fun k => x.getLsbD k || y.getLsbD k) ∧
     bits (.xor d a b l) (fun k => x.getLsbD k != y.getLsbD k) ∧
     bits (.andi d a i) (fun k => x.getLsbD k && (decide (k < 16) && i.getLsbD k)) ∧
     bits (.ori d a i) (fun k => x.getLsbD k || (decide (k < 16) && i.getLsbD k)) ∧
     bits (.xori d a i) (fun k => x.getLsbD k != (decide (k < 16) && i.getLsbD k))) ∧
  (∀ (s : State) (d a b : BitVec 5) (l : BitVec 3) (n : BitVec 6), s.issuerOk = true →
     let x := s.rd a
     let m := (s.opB b l).toNat % 64
     Writes (.shl d a b l) s d (BitVec.ofNat 64 (x.toNat * 2 ^ m)) ∧
     Writes (.shr d a b l) s d (BitVec.ofNat 64 (x.toNat / 2 ^ m)) ∧
     Writes (.sha d a b l) s d (BitVec.ofInt 64 (x.toInt / 2 ^ m)) ∧
     Writes (.shli d a n) s d (BitVec.ofNat 64 (x.toNat * 2 ^ n.toNat)) ∧
     Writes (.shri d a n) s d (BitVec.ofNat 64 (x.toNat / 2 ^ n.toNat)) ∧
     Writes (.shai d a n) s d (BitVec.ofInt 64 (x.toInt / 2 ^ n.toNat)) ∧
     (∃ k, k ≤ 64 ∧ x.toNat < 2 ^ (64 - k) ∧ (k < 64 → 2 ^ (63 - k) ≤ x.toNat) ∧
       Writes (.clz d a) s d (BitVec.ofNat 64 k)) ∧
     Writes (.popc d a) s d (BitVec.ofNat 64 ((List.range 64).countP (fun k => x.getLsbD k))))

/-- R113, R115: compares give 1 or 0; minimum, maximum and SEL choose one of their operands. -/
def Obligations.ComparesAndChoices : Prop :=
  ∀ (s : State) (d a b : BitVec 5) (l : BitVec 3) (i : BitVec 16), s.issuerOk = true →
    let x := s.rd a
    let y := s.opB b l
    Writes (.cmpeq d a b l) s d (if x = y then 1 else 0) ∧
    Writes (.cmpne d a b l) s d (if x = y then 0 else 1) ∧
    Writes (.cmplt d a b l) s d (if x.toInt < y.toInt then 1 else 0) ∧
    Writes (.cmple d a b l) s d (if x.toInt ≤ y.toInt then 1 else 0) ∧
    Writes (.cmpltn d a b l) s d (if x.toNat < y.toNat then 1 else 0) ∧
    Writes (.cmplen d a b l) s d (if x.toNat ≤ y.toNat then 1 else 0) ∧
    Writes (.cmplti d a i) s d (if x.toInt < i.toInt then 1 else 0) ∧
    Writes (.min d a b l) s d (BitVec.ofInt 64 (Min.min x.toInt y.toInt)) ∧
    Writes (.max d a b l) s d (BitVec.ofInt 64 (Max.max x.toInt y.toInt)) ∧
    Writes (.minn d a b l) s d (BitVec.ofNat 64 (Nat.min x.toNat y.toNat)) ∧
    Writes (.maxn d a b l) s d (BitVec.ofNat 64 (Nat.max x.toNat y.toNat)) ∧
    Writes (.sel d a b l) s d (if s.rd d = 0 then y else x)

/-- R116, R129, R146, R151: literals, lanes and masks read into registers, a CSR read, and NOP. A lane at or above L
reads 0. The mask is the one the bundle began with. R102, R104, R105, R147 to R149: what CSRR and the read side of
CSRS and CSRC return, CSR by CSR, once the bundle is open for issue: CTXCTL, ARSTAT, the wait counters, the busy bits,
the loop unit, ISSUED with its handlers' bundles (the model's reading, log 12), CYCLE, the trap registers, PREBOUND
and the features, of which the device offers none (R324). -/
def Obligations.LiteralsAndLanes : Prop :=
  (∀ (s : State) (d b : BitVec 5) (l : BitVec 3) (n : BitVec 4) (c : BitVec 12), s.issuerOk = true →
     let j := (s.opB b l).toNat % 16
     Writes (.movl d l) s d (BitVec.ofInt 64 (s.lit l.toNat).toInt) ∧
     Writes (.movlD d l) s d (BitVec.ofNat 64 ((s.lit l.toNat).toNat + (s.lit (l.toNat + 1)).toNat * 2 ^ 32)) ∧
     exec .nop s = .next s ∧
     (s.onOchre = false →
       Writes (.movam d) s d (BitVec.ofNat 64 s.issue.am.toNat) ∧
       (∀ e, e < 16 → s.issue.am.getLsbD e = true → (∀ k, k < e → s.issue.am.getLsbD k = false) →
         Writes (.rdfirst d n) s d ((s.tileCtx.engine e).scalar n.toNat)) ∧
       Writes (.rdlane d n b l) s d (if j < s.tileCtx.lanes then (s.tileCtx.engine j).scalar n.toNat else 0) ∧
       (csrKnown c.toNat = true → Writes (.csrr d c) s d (s.csr c)))) ∧
  (∀ (u : State) (d k x : Nat) (sp : Bool) (b : Bundle),
     let p : PartRef := .gang d k x sp
     let c : CtxRef := ⟨d, k, x⟩
     let v := u.readied p b
     let y := v.ctx c
     let t := v.thread p
     let read (n : BitVec 12) : Word := (u.atStart p b).csr n
     (∀ i, i < 64 → (read 0x000).getLsbD i = ((i == 0 && y.ftz) || (i == 1 && y.uchk) || (i == 2 && y.udis))) ∧
     (∀ i, i < 64 → (read 0x001).getLsbD i = y.arstat.getLsbD i) ∧
     read 0x002 = BitVec.ofNat 64 (v.wcOf p 0 + v.wcOf p 1 * 2 ^ 8 + v.wcOf p 2 * 2 ^ 16 + v.wcOf p 3 * 2 ^ 24) ∧
     (∀ i, i < 64 → (read 0x003).getLsbD i
       = ((decide (i < 8) && v.accBusy c i) || (decide (8 ≤ i ∧ i < 16) && v.obBusy c (i - 8)))) ∧
     (∀ l r, t.loops = l :: r → read 0x004 = BitVec.ofNat 64 (l.iter % 2 ^ 32 * 2 ^ 32 + (r.length + 1))) ∧
     (t.loops = [] → read 0x004 = 0) ∧
     read 0x005 = t.issued + t.hissued ∧ read 0x006 = BitVec.ofNat 64 ((u.time - u.readyAt) / 80) ∧
     read 0x008 = t.trapcause ∧ read 0x009 = t.trappc ∧ read 0x00A = t.trapval ∧
     read 0x010 = y.prebound.setWidth 64 ∧ read 0x020 = 0 ∧ read 0x021 = 0 ∧
     read 0x022 = (u.part (u.partN d)).feat.setWidth 64 ∧ read 0x023 = ((u.part (u.partN d)).feat >>> 64).setWidth 64)

/-- R117 to R119: an aligned scalar load begins one access of its size at its effective address, counted in wc0, whose
value its destination register takes when it lands; the register is not written before. A misaligned one traps with
0x40 and its address, and ends the thread of an Ochre core with that cause. R117 to R119: an aligned scalar store
begins one access with the low bytes of its source register at its effective address, counted in wc1; a misaligned one
traps with 0x40. -/
def Obligations.ScalarAccessesBegin : Prop :=
  (∀ (s : State) (d a : BitVec 5) (la : BitVec 4) (o : BitVec 12) (sc z : BitVec 3) (p : BitVec 6), s.issuerOk = true →
     let loads (i : Instr) (va : Word) (n : Nat) (sgn : Bool) (acq : Option Scope) : Prop :=
       (va.toNat % n = 0 → ∃ t, exec i s = .next t ∧
         s.Begins t s.scalarPath (.loadReg d.toNat n sgn) [Piece.mk' va.toNat n []] acq none 0 la.toNat) ∧
       (va.toNat % n ≠ 0 → Misaligned i s va)
     let at_ (n : Nat) : Word := s.rd a + BitVec.ofInt 64 (o.toInt * n)
     loads (.ldb d a la o) (at_ 1) 1 false none ∧
     loads (.ldh d a la o) (at_ 2) 2 false none ∧
     loads (.ldw d a la o) (at_ 4) 4 false none ∧
     loads (.ldd d a la o) (at_ 8) 8 false none ∧
     loads (.ldbs d a la o) (at_ 1) 1 true none ∧
     loads (.ldhs d a la o) (at_ 2) 2 true none ∧
     loads (.ldws d a la o) (at_ 4) 4 true none ∧
     loads (.loadAcquire d a la sc z p) (s.rd a + BitVec.ofNat 64 (p.toNat * (sizeCode z).1)) (sizeCode z).1 (sizeCode z).2
       (some (scopeOf sc))) ∧
  (∀ (s : State) (d a : BitVec 5) (la : BitVec 4) (o : BitVec 12) (sc z : BitVec 3) (p : BitVec 6), s.issuerOk = true →
     let stores (i : Instr) (va : Word) (n : Nat) (rel : Option Scope) : Prop :=
       (va.toNat % n = 0 → ∃ t, exec i s = .next t ∧
         s.Begins t s.scalarPath .store [Piece.mk' va.toNat n (toBytes n (s.rd d).toNat)] none rel 1 la.toNat) ∧
       (va.toNat % n ≠ 0 → Misaligned i s va)
     let at_ (n : Nat) : Word := s.rd a + BitVec.ofInt 64 (o.toInt * n)
     stores (.stb d a la o) (at_ 1) 1 none ∧
     stores (.sth d a la o) (at_ 2) 2 none ∧
     stores (.stw d a la o) (at_ 4) 4 none ∧
     stores (.std d a la o) (at_ 8) 8 none ∧
     stores (.storeRelease d a la sc z p) (s.rd a + BitVec.ofNat 64 (p.toNat * (sizeCode z).1)) (sizeCode z).1
       (some (scopeOf sc)))

/-- R118, R121, R122: an aligned scalar atomic begins one access with its operand, its compare value being the old rd;
it counts in wc1 where rd is s0 and in wc0 otherwise; a misaligned one traps with 0x40. -/
def Obligations.ScalarAtomicsBegin : Prop :=
  ∀ (s : State) (d a b : BitVec 5) (la : BitVec 4) (sc : BitVec 3) (o : BitVec 2) (z : BitVec 1), s.issuerOk = true →
    let n := if z = 0 then 4 else 8
    let atomic (i : Instr) (op : Nat) : Prop :=
      ((s.rd a).toNat % n = 0 → ∃ t, exec i s = .next t ∧
        s.Begins t s.scalarPath (.amo op n d.toNat (s.rd d)) [Piece.mk' (s.rd a).toNat n (toBytes n (s.rd b).toNat)]
          (if o.getLsbD 0 then some (scopeOf sc) else none) (if o.getLsbD 1 then some (scopeOf sc) else none)
          (if d = 0 then 1 else 0) la.toNat) ∧
      ((s.rd a).toNat % n ≠ 0 → Misaligned i s (s.rd a))
    atomic (.amoadd d a b la sc o z) 0 ∧ atomic (.amofadd d a b la sc o z) 1 ∧ atomic (.amoand d a b la sc o z) 2 ∧
    atomic (.amoor d a b la sc o z) 3 ∧ atomic (.amoxor d a b la sc o z) 4 ∧ atomic (.amomin d a b la sc o z) 5 ∧
    atomic (.amomax d a b la sc o z) 6 ∧ atomic (.amominn d a b la sc o z) 7 ∧ atomic (.amomaxn d a b la sc o z) 8 ∧
    atomic (.amoswp d a b la sc o z) 9 ∧ atomic (.amocas d a b la sc o z) 10

/-- R123, R124: a fence is put in force for its part at the place of its word and does nothing else. -/
def Obligations.FencesInForce : Prop :=
  ∀ (s : State) (sc : BitVec 3) (y x : BitVec 4), s.issuerOk = true →
    let mark (p : Option (Machine.Path × Machine.Path)) : FenceMark :=
      { paths := p, scope := scopeOf sc, before := s.nextId, both := false }
    Leaves (.fence sc) s { s.thr with fences := s.thr.fences ++ [mark none] } ∧
    (s.onOchre = false →
      Leaves (.fencex y x sc) s { s.thr with fences := s.thr.fences ++ [mark (some (pathOf x, pathOf y))] })

/-- R96, R126, R127: the plain branches and jumps. A taken transfer sets the PC and marks the bundle; BRL links to s31
and JRL to its register, the address of the next bundle; a branch not taken changes nothing. -/
def Obligations.PlainBranches : Prop :=
  ∀ (s : State) (d a : BitVec 5) (t : BitVec 21), s.issuerOk = true →
    let target := BitVec.ofInt 64 (s.issue.addr.toInt + 4 * t.toInt)
    Transfers (.br t) s { s.thr with pc := target } ∧
    Transfers (.brl t) s { s.thr.setReg 31 s.thr.pc with pc := target } ∧
    (s.rd a = 0 → Transfers (.bz a t) s { s.thr with pc := target } ∧ exec (.bnz a t) s = .next s) ∧
    (s.rd a ≠ 0 → Transfers (.bnz a t) s { s.thr with pc := target } ∧ exec (.bz a t) s = .next s) ∧
    Transfers (.jr a) s { s.thr with pc := s.rd a } ∧
    Transfers (.jrl d a) s { s.thr.setReg d.toNat s.thr.pc with pc := s.rd a }

/-- R46: a uniform branch. Where every active engine's condition bit agrees, it jumps or goes on by the sense; where
they disagree, UCHK set gives a trap 0x07 with the mask of the engines of the branch's sense, and UCHK clear sets UDIS
and lets the lowest active engine decide. R42, R45, R47: a divergent branch. With the active engines agreed it jumps
or goes on; with both subsets non-empty it pushes an entry that pends the rest and runs the taken subset at the
target; a full stack traps with 0x08. A long one pushes likewise where the gang may not split. -/
def Obligations.ConditionBranches : Prop :=
  (∀ (s : State) (k : BitVec 2) (t : BitVec 21), s.gangOk = true →
     let cond (e : Nat) : Bool := (s.tileCtx.engine e).k.getLsbD k.toNat
     let target := BitVec.ofInt 64 (s.issue.addr.toInt + 4 * t.toInt)
     let branch (i : Instr) (sense : Bool) : Prop :=
       (∀ e, e < 16 → s.issue.am.getLsbD e = true → cond e = sense) → s.issue.am ≠ 0 →
         Transfers i s { s.thr with pc := target }
     let goesOn (i : Instr) (sense : Bool) : Prop :=
       (∀ e, e < 16 → s.issue.am.getLsbD e = true → cond e = !sense) → exec i s = .next s
     let parts (i : Instr) (sense : Bool) : Prop :=
       ∀ e f, e < 16 → f < 16 → s.issue.am.getLsbD e = true → s.issue.am.getLsbD f = true →
         cond e = sense → cond f = (!sense) →
         (s.issue.uchk = true → s.issue.checked = false → s.trapOk = true →
           TrapsWith i s 0x07 0 ((s.condMask s.issue.am k sense).setWidth 64)) ∧
         (s.issue.uchk = false → ∀ m, m < 16 → s.issue.am.getLsbD m = true →
           (∀ j, j < m → s.issue.am.getLsbD j = false) →
           ∃ u, exec i s = .next u ∧ s.OnlyCtx { u with issue := s.issue } s.home ∧
             u.issue = { s.issue with taken := cond m = sense || s.issue.taken } ∧
             (u.ctx s.home).udis = true ∧ u.thr = { s.thr with pc := if cond m = sense then target else s.thr.pc } ∧
             { (u.ctx s.home).shell with udis := false } = { (s.ctx s.home).shell with udis := false })
     (branch (.buk k t) true ∧ branch (.bunk k t) false) ∧ (goesOn (.buk k t) true ∧ goesOn (.bunk k t) false) ∧
     (parts (.buk k t) true ∧ parts (.bunk k t) false)) ∧
  (∀ (s : State) (k j : BitVec 2) (t : BitVec 21), s.gangOk = true →
     let cond (e : Nat) : Bool := (s.tileCtx.engine e).k.getLsbD k.toNat
     let target := BitVec.ofInt 64 (s.issue.addr.toInt + 4 * t.toInt)
     let join := BitVec.ofInt 64 (s.issue.addr.toInt + 4 * (s.lit (j.toNat + 1)).toInt)
     let branch (i : Instr) (sense : Bool) : Prop :=
       ((∀ e, e < 16 → s.issue.am.getLsbD e = true → cond e = sense) → Transfers i s { s.thr with pc := target }) ∧
       (s.issue.am ≠ 0 → (∀ e, e < 16 → s.issue.am.getLsbD e = true → cond e = !sense) → exec i s = .next s) ∧
       (∀ e f, e < 16 → f < 16 → s.issue.am.getLsbD e = true → s.issue.am.getLsbD f = true →
         cond e = sense → cond f = (!sense) →
         (s.stackDepth < 32 → ∃ n : BitVec 16,
           (∀ m, m < 16 → n.getLsbD m = (s.issue.am.getLsbD m && (cond m == sense))) ∧
           Transfers i s { s.thr with
             pc := target, am := n
             stack := { split := false, ph := false, join := pcBits join, resume := pcBits s.thr.pc, full := s.issue.am,
                        pend := s.issue.am &&& ~~~n } :: s.thr.stack }) ∧
         (32 ≤ s.stackDepth → s.issue.checked = false → s.trapOk = true → TrapsWith i s 0x08 0 0))
     branch (.bdk k j t) true ∧ branch (.bdnk k j t) false ∧
     (s.maySplit = false → branch (.bdkLong k j t) true ∧ branch (.bdnkLong k j t) false))

/-- R47, R48: where the gang may split, a long divergent branch gives the taken subset to the spare sequencer at the
target, with copies of the registers and loop levels and no stack of its own, leaves the rest to the primary at the
next bundle, and puts a split entry on the context's stack; one core's spare is held by one context. -/
def Obligations.LongBranchesSplit : Prop :=
  ∀ (s : State) (k j : BitVec 2) (t : BitVec 21) (c : CtxRef), s.gangOk = true → s.maySplit = true → s.home = c →
    s.stackDepth < 32 →
    let cond (e : Nat) : Bool := (s.tileCtx.engine e).k.getLsbD k.toNat
    let target := BitVec.ofInt 64 (s.issue.addr.toInt + 4 * t.toInt)
    let join := BitVec.ofInt 64 (s.issue.addr.toInt + 4 * (s.lit (j.toNat + 1)).toInt)
    let splits (i : Instr) (sense : Bool) : Prop :=
      ∀ e f, e < 16 → f < 16 → s.issue.am.getLsbD e = true → s.issue.am.getLsbD f = true →
        cond e = sense → cond f = (!sense) →
        ∃ u h, exec i s = .next u ∧ (u.ctx c).spare = some h ∧ (u.core c.die c.core).spareOwner = some c.ctx ∧
          h.pc = target ∧ (u.ctx c).main.pc = s.thr.pc ∧
          (∀ m, m < 16 → h.am.getLsbD m = (s.issue.am.getLsbD m && (cond m == sense))) ∧
          (u.ctx c).main.am = s.issue.am &&& ~~~h.am ∧
          h.regs = s.thr.regs ∧ (u.ctx c).main.regs = s.thr.regs ∧ h.loops = s.thr.loops ∧
          (u.ctx c).main.loops = s.thr.loops ∧ h.stack = [] ∧ (u.ctx c).main.stack = [] ∧
          (u.ctx c).base = { split := true, ph := false, join := pcBits join, resume := 0, full := s.issue.am, pend := 0 }
            :: (s.thr.stack ++ (s.ctx c).base) ∧
          u.mem = s.mem ∧ u.accs = s.accs ∧ (u.ctx c).eng = (s.ctx c).eng
    splits (.bdkLong k j t) true ∧ splits (.bdnkLong k j t) false

/-- R132, R135: LOOP with a count pushes a level whose body starts at the next bundle and ends at the target; a
seventh level traps with 0x0B, and a target before the next bundle with 0x0A. -/
def Obligations.LoopPushes : Prop :=
  ∀ (s : State) (a : BitVec 5) (t : BitVec 21), s.issuerOk = true →
    let target := BitVec.ofInt 64 (s.issue.addr.toInt + 4 * t.toInt)
    let n := (s.rd a).toNat % 2 ^ 32
    (n ≠ 0 → s.thr.pc.toNat ≤ target.toNat → s.thr.loops.length ≠ 6 →
      Pushes (.loop a t) s { s.thr with
        loops := { start := s.thr.pc, last := target, rem := n, iter := 0, bind := [] } :: s.thr.loops }) ∧
    (n = 0 → s.thr.pc.toNat ≤ target.toNat → ∀ w u, s.fetchWord s.issue.part target.toNat = (.word w, u) →
      ∃ v, exec (.loop a t) s = .next v ∧ v.issue = { u.issue with taken := true } ∧
        v.thr = { u.thr with pc := target + BitVec.ofNat 64 (4 * (decodeHeader w).len) } ∧ v.mem = u.mem) ∧
    (s.issue.checked = false → s.trapOk = true →
      (target.toNat < s.thr.pc.toNat → TrapsWith (.loop a t) s 0x0A 0 0) ∧
      (n ≠ 0 → s.thr.pc.toNat ≤ target.toNat → s.thr.loops.length = 6 → TrapsWith (.loop a t) s 0x0B 0 0))

/-- R133: LOOPS, its two row pointers read or kept from the reads before its bundle issued, advances its pointer
register by 4 and pushes a level with their difference as the trip count; a misaligned pointer traps with 0x40. R136,
R137: LSTR binds a register and a stride to the top level, replacing the stride of a register bound already; LBRK pops
the top level and transfers to its register or its displaced literal, and without a level traps with 0x0A. -/
def Obligations.RowLoopsAndBindings : Prop :=
  (∀ (s u : State) (a : BitVec 5) (t : BitVec 21) (l : List Byte), s.issuerOk = true →
     let target := BitVec.ofInt 64 (s.issue.addr.toInt + 4 * t.toInt)
     let p := s.rd a
     ((p.toNat % 4 = 0 ∧ s.rowPointers p = (.bytes l, u) ∧ ofBytes (l.take 4) < ofBytes (l.drop 4) ∧
       s.thr.pc.toNat ≤ target.toNat ∧ s.thr.loops.length ≠ 6) →
       ∃ v, exec (.loops a t) s = .next v ∧ v.mem = s.mem ∧ v.issue = { s.issue with taken := true, pushed := true } ∧
         v.thr = { s.thr.setReg a.toNat (BitVec.ofNat 64 (p.toNat + 4)) with
           seen := u.thr.seen
           loops := { start := s.thr.pc, last := target, rem := ofBytes (l.drop 4) - ofBytes (l.take 4), iter := 0,
                      bind := [] } :: s.thr.loops }) ∧
     (p.toNat % 4 ≠ 0 → s.issue.checked = false → s.trapOk = true → TrapsWith (.loops a t) s 0x40 0 p)) ∧
  (∀ (s : State) (d b : BitVec 5) (l : BitVec 3) (v : LoopLevel) (r : List LoopLevel), s.issuerOk = true →
     (s.thr.loops = v :: r → s.zeroTrip = false → Passes (.lstr d b l) s →
       ∃ w, Leaves (.lstr d b l) s { s.thr with loops := w :: r } ∧ { w with bind := v.bind } = v ∧
         (d.toNat, s.opB b l) ∈ w.bind ∧
         (∀ p, p.1 ≠ d.toNat → (p ∈ w.bind ↔ p ∈ v.bind)) ∧ (∀ p ∈ w.bind, p.1 = d.toNat → p.2 = s.opB b l)) ∧
     (s.thr.loops = v :: r → Transfers (.lbrk b l) s { s.thr with
       loops := r, pc := if l = 0 then s.rd b else BitVec.ofInt 64 (s.issue.addr.toInt + 4 * (s.lit l.toNat).toInt) }) ∧
     (s.thr.loops = [] → s.issue.checked = false → s.trapOk = true → TrapsWith (.lbrk b l) s 0x0A 0 0))

/-- R130: SETAM takes the low sixteen bits of its operand, limited to LM and to FULL of the stack's top entry; an
empty result with no entry traps with 0x09. -/
def Obligations.SetamMask : Prop :=
  ∀ (s : State) (b : BitVec 5) (l : BitVec 3), s.gangOk = true →
    let m := (s.opB b l).setWidth 16 &&& s.tileCtx.lm
    (∀ e, s.topEntry = some e → Leaves (.setam b l) s { s.thr with am := m &&& e.full }) ∧
    (s.topEntry = none → m ≠ 0 → Leaves (.setam b l) s { s.thr with am := m }) ∧
    (s.topEntry = none → m = 0 → s.pushesHere = false → s.issue.checked = false → s.trapOk = true →
      TrapsWith (.setam b l) s 0x09 0 (s.opB b l))

/-- R139, R140, R141, R142: the words that wait. BARARV adds one arrival, counted for others once what the gang issued
before is performed; BARWT, WAITC and YIELD add a wait to their part unless BARWT's or WAITC's event has come already;
in a half of a split gang these words but WAITC, and the ring words, LDCWT, whole-gang copies, COLL, TURN, NODEPUT and
LAUNCH (R50), trap with 0x0E before any other check of theirs (the model's order for LDCWT, log 117). -/
def Obligations.WaitingWords : Prop :=
  ∀ (s : State) (n : BitVec 5) (c b : BitVec 5) (l : BitVec 3) (d a : BitVec 5) (sc m : BitVec 3) (side : BitVec 1)
    (j : BitVec 2) (bin : BitVec 6) (la : BitVec 4),
    (s.wholeOk = true →
      (∃ t, exec (.bararv n) s = .next t ∧ s.OnlyCtx t s.home ∧
        (∀ m, ngetD (t.ctx s.home).arrive m 0 = ngetD (s.ctx s.home).arrive m 0 + if m = n.toNat then 1 else 0) ∧
        { bar := n.toNat, before := s.nextId } ∈ (t.ctx s.home).arrivals ∧
        { t.ctx s.home with arrive := [], arrivals := [], counted := [] }
          = { s.ctx s.home with arrive := [], arrivals := [], counted := [] }) ∧
      Leaves (.barwt n) s (if s.barrierMet s.home n.toNat then s.thr
        else { s.thr with waits := s.thr.waits ++ [.barwt n.toNat] }) ∧
      Leaves (.yield b l) s { s.thr with
        waits := s.thr.waits ++ [.yield (s.time + 80 * ((s.opB b l).toNat % 2 ^ 32)) s.issue.addr] }) ∧
    (s.gangOk = true → c.toNat < 4 →
      let lim := Nat.min (s.opB b l).toNat 255
      Leaves (.waitc c b l) s (if s.wcOf s.issue.part c.toNat ≤ lim then s.thr
        else { s.thr with waits := s.thr.waits ++ [.waitc c.toNat lim] })) ∧
    (s.inHalf = true → s.issue.checked = false → s.trapOk = true →
      ∀ i ∈ [Instr.bararv n, .barwt n, .yield b l, .slotwait d a sc side, .slotsig a sc side, .ldcwt d a,
        .cpy a b 1 m, .cpyy a b j 1 m, .coll a d, .turn a d la, .nodeput a b la bin, .launch a d la],
        TrapsWith i s 0x0E 0 s.wordVal)

/-- R143 to R145, R152: SLOTWAIT with its descriptor read and well formed returns BASE + (k mod NSLOT) × SLOTB at once
where its side has a slot, k being the side's own counter, and otherwise waits with its bundle at the PC; SLOTSIG
begins an atomic addition of 1 to the side's counter with release at its scope, counted in wc1 (the model's reading,
log 23). A misaligned descriptor or BASE traps with 0x40, a descriptor that breaks R143 with 0x83, once it is read,
which is before the bundle issues (log 26). -/
def Obligations.RingWords : Prop :=
  ∀ (s u : State) (d a : BitVec 5) (sc : BitVec 3) (side : BitVec 1) (l : List Byte), s.wholeOk = true →
    let p := s.rd a
    let r := ringOf l
    let ready := if side = 1 then r.pcount < r.ccount + r.nslot else r.ccount < r.pcount
    let k := if side = 1 then r.pcount else r.ccount
    (Passes (.slotwait d a sc side) s →
      s.reading p.toNat 64 (some (scopeOf sc)) = (.bytes l, u) →
      ∃ t, exec (.slotwait d a sc side) s = .next t ∧ t.mem = s.mem ∧ t.accs = s.accs ∧
        { t.thr with seen := s.thr.seen }
          = if ready then s.thr.setReg d.toNat (BitVec.ofNat 64 (r.base + k % r.nslot * r.slotb))
            else { s.thr with
              pc := s.issue.addr, waits := s.thr.waits ++ [.slotwait p (side == 1) (scopeOf sc)] }) ∧
    (Passes (.slotsig a sc side) s → ∃ t, exec (.slotsig a sc side) s = .next t ∧
      s.Begins t .scalar (.amo 0 8 0 0)
        [Piece.mk' (p.toNat + if side = 1 then 0 else 8) 8 (toBytes 8 1)] none (some (scopeOf sc)) 1 15) ∧
    (p.toNat % 64 ≠ 0 → s.issue.checked = false → s.trapOk = true →
      TrapsWith (.slotwait d a sc side) s 0x40 0 p ∧ TrapsWith (.slotsig a sc side) s 0x40 0 p) ∧
    (p.toNat % 64 = 0 → (s.reading p.toNat 64 none).1 = .bytes l → s.issue.checked = false → s.trapOk = true →
      ∀ i ∈ [Instr.slotwait d a sc side, .slotsig a sc side],
        (r.base % 64 ≠ 0 → TrapsWith i s 0x40 0 (BitVec.ofNat 64 r.base)) ∧
        (r.base % 64 = 0 → (r.nslot = 0 ∨ 65536 < r.nslot ∨ r.slotb % 64 ≠ 0) → TrapsWith i s 0x83 0 p))

/-- R39, R139, R141, R142, R144, R240: a YIELDing context takes its oldest posting and goes on at its PC; with none,
once its time is up it goes on after its bundle's end-of-iteration processing. A blocked SLOTWAIT that finds a slot
waits no longer, and its bundle, still at the PC, is due. WAITC ends at its limit, BARWT once its barrier is met, and
a sleep on a predicted accumulator, in which a held part stands BLOCKED (the model's reading, log 27), at the
predicted cycle. Each context is READY or RESIDENT again with no wait left. -/
def Obligations.WaitsEnd : Prop :=
  ∀ (s : State) (d k x : Nat), let c : CtxRef := ⟨d, k, x⟩
    (∀ at_ a q r, s.waitsFor c (.yield at_ a) = true → (s.ctx c).posts = q :: r → q.toNat % 4 = 0 →
      ∃ t, exec (.continuationTake d k x) s = .next t ∧ t.awake c = true ∧ (t.ctx c).posts = r ∧
        (t.ctx c).main = { (s.ctx c).main with pc := q, waits := [] }) ∧
    (∀ at_ a, s.waitsFor c (.yield at_ a) = true → (s.ctx c).posts = [] → at_ ≤ s.time →
      ∃ t, exec (.yieldTimeout d k x) s = .next t ∧ t.awake c = true ∧
        (t.ctx c).main = Thread.endIteration a (s.ctx c).main.floor 6 { (s.ctx c).main with waits := [] }) ∧
    (∀ desc prod sc u l v, s.waitsFor c (.slotwait desc prod sc) = true →
      s.peekWith (.gang d k x false) desc.toNat 64 (some sc) = (.bytes l, u) → (ringOf l).slot prod = some v →
      ∃ t, exec (.slotwaitRecheck d k x) s = .next t ∧ t.awake c = true ∧
        { (t.ctx c).main with seen := (s.ctx c).main.seen } = { (s.ctx c).main with waits := [], due := true }) ∧
    (∀ n lim, s.waitsFor c (.waitc n lim) = true → ngetD (s.ctx c).wc n 0 ≤ lim →
      ∃ t, exec (.contextWake (.gang d k x false)) s = .next t ∧ t.awake c = true ∧
        (t.ctx c).main = { (s.ctx c).main with waits := [] }) ∧
    (∀ n, s.waitsFor c (.barwt n) = true → s.barrierMet c n = true →
      ∃ t, exec (.contextWake (.gang d k x false)) s = .next t ∧ t.awake c = true) ∧
    (∀ n acc, s.waitsFor c (.predict n acc) = true → n ≤ s.cycle →
      ∃ t, exec (.predictionWake (.gang d k x false)) s = .next t ∧ t.awake c = true ∧
        (t.ctx c).main = { (s.ctx c).main with waits := [] })

/-- R151, R346, R348, R350, R356: TRAP n enters the handler. TRAPCAUSE holds 0xB8 + n with kind 1 and no distance,
TRAPPC the next bundle, TRAPVAL zero; s24 to s31 exchange with the shadow bank and s1 to s23 stay; the mask and depths
are recorded; results and lookahead windows on their way are held for the return; no bundle is counted. A spare half's
cause goes behind one of its primary's of the cycle, so it stands among the causes on their way first (R356; log 33).
-/
def Obligations.TrapEntry : Prop :=
  ∀ (s : State) (n : BitVec 3), s.trapOk = true →
    (s.inSpare = true → ∃ t q, exec (.trap n) s = .next t ∧
      (t.ctx s.home).inbox = insertCause s.readyAt (true, q) (s.ctx s.home).inbox ∧ q.code = 0xB8 + n.setWidth 8 ∧
      q.kind = 1 ∧ q.val = 0 ∧ q.time = s.time ∧ t.thr.pc = s.thr.pc ∧ t.thr.regs = s.thr.regs ∧ t.mem = s.mem ∧
      t.accs = s.accs) ∧
    (s.inSpare = false → ∃ t h, exec (.trap n) s = .next t ∧ t.thr.handler = some h ∧
      t.thr.trapcause.extractLsb' 0 8 = 0xB8 + n.setWidth 8 ∧ t.thr.trapcause.extractLsb' 16 3 = 1 ∧
      t.thr.trapcause.extractLsb' 19 1 = 0 ∧ t.thr.trapcause.extractLsb' 32 16 = 0 ∧
      t.thr.trappc = s.thr.pc &&& 0x01FFFFFFFFFFFFFC ∧ t.thr.trapval = 0 ∧ t.thr.pc = s.tileCtx.handlerAddr ∧
      (∀ r, r < 24 → t.thr.reg r = s.thr.reg r) ∧
      (∀ r, 24 ≤ r → r < 32 → t.thr.reg r = ngetD s.thr.shadow r 0 ∧ ngetD t.thr.shadow r 0 = s.thr.reg r) ∧
      h.am = s.thr.am ∧ h.loopDepth = s.thr.loops.length ∧ h.stackDepth = s.thr.stack.length ∧
      h.pend = s.thr.pend ∧ h.la = s.thr.la ∧
      t.thr.am = s.thr.am ∧ t.thr.loops = s.thr.loops ∧ t.thr.stack = s.thr.stack ∧ t.thr.pend = [] ∧
      t.thr.la = [] ∧ t.thr.bundles = s.thr.bundles ∧ t.thr.issued = s.thr.issued ∧ t.mem = s.mem ∧ t.accs = s.accs ∧
      (t.ctx s.home).eng = (s.ctx s.home).eng)

/-- R346, R351, R352: RTE at the depths its handler was entered with resumes at TRAPPC under the saved mask limited to
LM, gives back s24 to s31 and the results on their way, and leaves the handler; outside a handler it traps with 0x10;
at other depths the program ends. -/
def Obligations.ReturnFromTrap : Prop :=
  ∀ (s : State) (h : HandlerEntry), s.gangOk = true → s.issue.checked = false →
    (s.thr.handler = some h → s.thr.loops.length ≤ h.loopDepth → s.thr.stack.length ≤ h.stackDepth → s.thr.causes = [] →
      ∃ t, exec .rte s = .next t ∧ t.thr.handler = none ∧ t.thr.pc = s.thr.trappc ∧
        t.thr.am = h.am &&& s.tileCtx.lm ∧ t.thr.pend = h.pend ∧ t.thr.la = h.la ∧ t.thr.bundles = s.thr.bundles ∧ t.thr.issued = s.thr.issued ∧
        (∀ r, r < 24 → t.thr.reg r = s.thr.reg r) ∧
        (∀ r, 24 ≤ r → r < 32 → t.thr.reg r = ngetD s.thr.shadow r 0 ∧ ngetD t.thr.shadow r 0 = s.thr.reg r) ∧
        t.thr.trapcause = s.thr.trapcause ∧ t.thr.trapval = s.thr.trapval ∧ t.mem = s.mem) ∧
    (s.trapOk = true → TrapsWith .rte s 0x10 0 0) ∧
    (s.thr.handler = some h → h.loopDepth < s.thr.loops.length ∨ h.stackDepth < s.thr.stack.length →
      ∃ t, exec .rte s = .next t ∧ (t.ctx s.home).st = .draining ∧ (t.ctx s.home).lm = 0)

/-- R70, R146 to R148, R293, R348: CSRW, CSRS and CSRC field by field. RW fields take the bits, RW0C fields are
cleared only by a written 0 and never set, a bound below 1,024 is stored as 1,024; CSRS and CSRC also return the old
value and with s0 only read; CSRW from s0 writes zero; a write to an RO CSR, or a CSR that does not exist, traps with
0x0F. -/
def Obligations.CsrWrites : Prop :=
  ∀ (s : State) (d a : BitVec 5) (c : BitVec 12), s.gangOk = true →
    let v := s.rd a
    let x := s.tileCtx
    let runs (i : Instr) (old : Bool) (q : State → Prop) : Prop :=
      ∃ t, exec i s = .next t ∧ s.OnlyCtx t s.home ∧ (∀ r, t.thr.reg r = if old ∧ r = d.toNat ∧ r ≠ 0 then s.csr c else s.thr.reg r)
        ∧ (t.ctx s.home).eng = x.eng ∧ (t.ctx s.home).lm = x.lm ∧ t.thr.pc = s.thr.pc ∧ q t
    (c = 0x000 →
      runs (.csrw a c) false (fun t => (t.ctx s.home).ftz = v.getLsbD 0 ∧ (t.ctx s.home).uchk = v.getLsbD 1 ∧
        (t.ctx s.home).udis = (x.udis && v.getLsbD 2)) ∧
      runs (.csrs d a c) true (fun t => (t.ctx s.home).ftz = (x.ftz || v.getLsbD 0) ∧
        (t.ctx s.home).uchk = (x.uchk || v.getLsbD 1) ∧ (t.ctx s.home).udis = x.udis) ∧
      runs (.csrc d a c) true (fun t => (t.ctx s.home).ftz = (x.ftz && !v.getLsbD 0) ∧
        (t.ctx s.home).uchk = (x.uchk && !v.getLsbD 1) ∧ (t.ctx s.home).udis = (x.udis && !v.getLsbD 2))) ∧
    (c = 0x001 →
      runs (.csrw a c) false (fun t => (t.ctx s.home).arstat = x.arstat &&& v.setWidth 7) ∧
      runs (.csrs d a c) true (fun t => (t.ctx s.home).arstat = x.arstat) ∧
      runs (.csrc d a c) true (fun t => (t.ctx s.home).arstat = x.arstat &&& ~~~(v.setWidth 7))) ∧
    (c = 0x008 → runs (.csrw a c) false (fun t => t.thr.trapcause = v &&& 0x0000FFFF0F0F00FF) ∧
      runs (.csrs d a c) true (fun t => t.thr.trapcause
        = if a = 0 then s.thr.trapcause else (s.thr.trapcause ||| v) &&& 0x0000FFFF0F0F00FF) ∧
      runs (.csrc d a c) true (fun t => t.thr.trapcause
        = if a = 0 then s.thr.trapcause else s.thr.trapcause &&& ~~~v &&& 0x0000FFFF0F0F00FF)) ∧
    (c = 0x009 → runs (.csrw a c) false (fun t => t.thr.trappc = v &&& 0x01FFFFFFFFFFFFFC) ∧
      runs (.csrs d a c) true (fun t => t.thr.trappc
        = if a = 0 then s.thr.trappc else (s.thr.trappc ||| v) &&& 0x01FFFFFFFFFFFFFC) ∧
      runs (.csrc d a c) true (fun t => t.thr.trappc
        = if a = 0 then s.thr.trappc else s.thr.trappc &&& ~~~v &&& 0x01FFFFFFFFFFFFFC)) ∧
    (c = 0x00A → runs (.csrw a c) false (fun t => t.thr.trapval = v) ∧
      runs (.csrs d a c) true (fun t => t.thr.trapval = s.thr.trapval ||| v) ∧
      runs (.csrc d a c) true (fun t => t.thr.trapval = s.thr.trapval &&& ~~~v)) ∧
    (c = 0x010 → runs (.csrw a c) false (fun t =>
      (t.ctx s.home).prebound.toNat = Nat.max 1024 (v.toNat % 2 ^ 32)) ∧
      runs (.csrs d a c) true (fun t => (t.ctx s.home).prebound
        = if a = 0 then x.prebound else BitVec.ofNat 32 (Nat.max 1024 (x.prebound ||| v.setWidth 32).toNat)) ∧
      runs (.csrc d a c) true (fun t => (t.ctx s.home).prebound
        = if a = 0 then x.prebound else BitVec.ofNat 32 (Nat.max 1024 (x.prebound &&& ~~~(v.setWidth 32)).toNat))) ∧
    (csrKnown c.toNat = true → Writes (.csrs d 0 c) s d (s.csr c) ∧ Writes (.csrc d 0 c) s d (s.csr c)) ∧
    (csrWritable c.toNat = false → s.issue.checked = false → s.trapOk = true →
      TrapsWith (.csrw a c) s 0x0F 0 (c.setWidth 64) ∧
      (csrKnown c.toNat = false ∨ a ≠ 0 →
        TrapsWith (.csrs d a c) s 0x0F 0 (c.setWidth 64) ∧ TrapsWith (.csrc d a c) s 0x0F 0 (c.setWidth 64)) ∧
      (csrKnown c.toNat = false → TrapsWith (.csrr d c) s 0x0F 0 (c.setWidth 64)))

/-- R150, R366: LDCWT with COUNT 0 does nothing; past the table it traps with 0x11 and on a misaligned source with
0x40; else it begins the read of its entries and holds the part's next bundle. R150, R366: the entries of an LDCWT,
all read and legal, stand in the context's table from FIRST up, no other entry changes, the bank's image tag is
cleared, wc0 falls and the load holds its part no longer. -/
def Obligations.ControlWordTables : Prop :=
  (∀ (s : State) (d a : BitVec 5), s.wholeOk = true →
     let first := (s.rd d).toNat % 512
     let count := (s.rd d).toNat / 2 ^ 16 % 1024
     (count = 0 → exec (.ldcwt d a) s = .next s) ∧
     (count ≠ 0 → first + count ≤ 512 → (s.rd a).toNat % 32 = 0 →
       ∃ u, exec (.ldcwt d a) s = .next (u.setThr { u.thr with cwtLoad := u.thr.cwtLoad ++ [s.nextId] }) ∧
         s.Begins u .scalar (.ldcwt first count) (sectorPieces (s.rd a).toNat (32 * count)) none none 0 15) ∧
     (s.issue.checked = false → s.trapOk = true → count ≠ 0 →
       (512 < first + count → TrapsWith (.ldcwt d a) s 0x11 0 (BitVec.ofNat 64 (count * 2 ^ 16 + first))) ∧
       (first + count ≤ 512 → (s.rd a).toNat % 32 ≠ 0 → TrapsWith (.ldcwt d a) s 0x40 0 (s.rd a)))) ∧
  (∀ (s : State) (d k x : Nat) (a : Access) (first count : Nat), d < 24 → k < 48 → x < 8 →
     s.accs = [a] → a.op = .ldcwt first count → a.by_.ctx = ⟨d, k, x⟩ → a.who = .gang d k x false → a.wc = 0 →
     (∀ p ∈ a.pieces, p.st = .acked) → a.index = none →
     (∀ e ∈ entriesOf count a.bytes, entryOk e = true) →
     let table (t : State) (i : Nat) : BitVec 256 := ngetD (ngetD (t.core d k).cwt x []) i 0
     ∃ t, exec (.ldcwtLoadDone d k x) s = .next t ∧
       (∀ i, i < count → table t (first + i) = BitVec.ofNat 256 (ofBytes ((a.bytes.drop (32 * i)).take 32))) ∧
       (∀ i, i < first ∨ first + count ≤ i → table t i = table s i) ∧ nget (t.core d k).cwtTag x = none ∧
       t.wcOf (.gang d k x false) 0 = s.wcOf (.gang d k x false) 0 - 1 ∧ a.id ∉ (t.ctx ⟨d, k, x⟩).main.cwtLoad ∧
       t.accs = [] ∧ t.mem = s.mem)

/-- R209, R210: the LK words of an Ochre thread. LKFETCH begins a read counted in its wc0; LKDEDUP answers the entry
that holds its key with bit 8 set, else puts it into the lowest free entry, else answers all ones, and its clear form
empties the table; LKPOOL changes only the destination row. R168, R210, R211, R263: LKHAND puts local bytes after
those handed already, in its request's scratchpad allocation or in the range of the OSB record it captured, but for
bytes that a later request of its context has delivered there already; it counts a .last, and at a place outside that
allocation or range ends the thread with 0x87 and puts nothing; in a thread that a word of its bundle has ended it
does nothing. No unit or slot that comes after it has written the scratchpad in this cycle (R256). -/
def Obligations.OchreThreadWords : Prop :=
  (∀ (s : State) (d a b : BitVec 5) (n : BitVec 8) (o : BitVec 2) (f : BitVec 4), s.issuerOk = true → s.onOchre = true →
     let c := s.ochreHere
     let key := s.rd a
     let dst := (s.rd d).toNat
     ((s.rd d).toNat % 16 = 0 → (s.rd d).toNat + 16 * (n.toNat + 1) ≤ 65536 →
       ∃ t, exec (.lkfetch d a n) s = .next t ∧
         s.Begins t .gather (.lkfetch dst) (sectorPieces (s.rd a).toNat (16 * (n.toNat + 1))) none none 0 15) ∧
     (∀ x, c.find key = some x → Writes (.lkdedup d a) s d (BitVec.ofNat 64 (x + 256))) ∧
     (c.find key = none → ∀ x, x < 256 → nget c.cam x = none → (∀ y, y < x → nget c.cam y ≠ none) →
       ∃ t, exec (.lkdedup d a) s = .next t ∧ (∀ r, t.thr.reg r = if r = d.toNat ∧ r ≠ 0 then BitVec.ofNat 64 x else s.thr.reg r) ∧
         nget t.ochreHere.cam x = some key ∧ (∀ y, y ≠ x → nget t.ochreHere.cam y = nget c.cam y) ∧
         t.ochreHere.store = c.store ∧ t.mem = s.mem) ∧
     (c.find key = none → (∀ x, x < 256 → nget c.cam x ≠ none) → Writes (.lkdedup d a) s d (BitVec.allOnes 64)) ∧
     (∃ t, exec (.lkdedupClear d a) s = .next t ∧ t.ochreHere.cam = [] ∧ t.ochreHere.store = c.store ∧
       (∀ r, t.thr.reg r = if r = d.toNat then 0 else s.thr.reg r) ∧ t.mem = s.mem) ∧
     (Passes (.lkpool d a b o f) s →
       ∃ t, exec (.lkpool d a b o f) s = .next t ∧ t.thr = s.thr ∧ t.mem = s.mem ∧ t.ochreHere.cam = c.cam ∧
         (∀ i, i < dst ∨ dst + 4 * (s.rd b).toNat ≤ i → t.ochreHere.read i 1 = c.read i 1) ∧
         ((s.rd b).toNat = 1 → t.ochreHere.read dst 4 = toBytes 4 (poolStep o.toNat f.toNat (ofBytes (c.read dst 4))
           (ofBytes (c.read (s.rd a).toNat (poolWidth f.toNat))))))) ∧
  (∀ (s : State) (a b : BitVec 5) (t : BitVec 1) (g : GatherReq), s.issuerOk = true → s.onOchre = true →
     Passes (.lkhand a b t) s → s.ochreHere.req = some g → g.by_.ctx.ok = true →
     let c := s.ochreHere
     let n := (s.rd b).toNat
     let at_ := g.dst.toNat + c.handed
     let data := c.read (s.rd a).toNat n
     let home := g.by_.ctx
     let x := s.ctx home
     let k := s.core home.die home.core
     let osb := g.ob.isSome
     let size : Nat := g.ob.elim x.spadSize (fun v => obLen v * 64)
     let spot : Nat := g.ob.elim at_ (fun v => obBase v * 64 + at_)
     let first : Nat := (if osb then x.osbBase else x.spadBase) + spot
     let later (i : Nat) : Bool := g.newer.any (fun o => o.1 == osb && o.2.1 == g.eng && decide (o.2.2.1 ≤ i ∧ i < o.2.2.1 + o.2.2.2))
     let puts (e i : Nat) : Bool := e == g.eng && decide (first ≤ i ∧ i < first + n) && !later (spot + (i - first))
     (c.done = true → exec (.lkhand a b t) s = .next s) ∧
     (c.done = false → (k.writtenAt = s.cycle → ∀ w ∈ k.written, w.rank ≤ gatherRank) → at_ + n ≤ size → g.eng < 16 →
       first + n ≤ (if osb then 65536 else 262144) →
       ∃ u, exec (.lkhand a b t) s = .next u ∧
         u.ochreHere = { c with handed := c.handed + n, lasts := c.lasts + t.toNat } ∧
         let v := u.core home.die home.core
         (∀ e i, e < 16 → i < 262144 → blocksByte v.spad 128 e i
           = if !osb && puts e i then at' data (i - first) 0 else blocksByte k.spad 128 e i) ∧
         (∀ e i, e < 16 → i < 65536 → blocksByte v.osb 32 e i
           = if osb && puts e i then at' data (i - first) 0 else blocksByte k.osb 32 e i) ∧
         { v with writtenAt := k.writtenAt, written := k.written, spad := k.spad, osb := k.osb } = k ∧
         u.mem = s.mem ∧ u.thr = s.thr) ∧
     (c.done = false → size < at_ + n →
       ∃ u, exec (.lkhand a b t) s = .next u ∧ u.ochreHere = { c with done := true, fail := some 0x87 } ∧
         u.cores = s.cores ∧ u.mem = s.mem))

/-- R194, R200, R204, R376: MSET, CPYSET and QRES write one record from two registers, sb above sa: MSET and CPYSET a
record of the context, QRES that record of every active engine and of no other, with a command to Mordant, the record
standing at once while its acts wait for the command (the model's reading, log 38); a record that breaks its field
rules traps with 0x60, 0x80 or 0x64 and writes nothing. R189, R190, R192, R196, R197, R201 to R203: a matrix or
Mordant command joins the end of its unit's queue of its core with the values, the record and the mask it captured,
and touches no register; a loop of no K-step queues nothing. -/
def Obligations.RecordsAndUnitCommands : Prop :=
  (∀ (s : State) (a b : BitVec 5) (n : BitVec 4) (o : BitVec 3) (z : BitVec 1), s.gangOk = true →
     let v := BitVec.ofNat 128 ((s.rd b).toNat * 2 ^ 64 + (s.rd a).toNat)
     let x := s.tileCtx
     (Passes (.mset a b n) s → ∃ t, exec (.mset a b n) s = .next t ∧ s.OnlyCtx t s.home ∧
       (∀ m, ngetD (t.ctx s.home).mg m 0 = if m = n.toNat then v else ngetD x.mg m 0) ∧
       { t.ctx s.home with mg := x.mg } = x) ∧
     (Passes (.cpyset a b n) s → ∃ t, exec (.cpyset a b n) s = .next t ∧ s.OnlyCtx t s.home ∧
       (∀ m, ngetD (t.ctx s.home).tl m 0 = if m = n.toNat then v else ngetD x.tl m 0) ∧
       { t.ctx s.home with tl := x.tl } = x) ∧
     (Passes (.qres a b z o) s → ∃ t c, exec (.qres a b z o) s = .next t ∧
       t.coreHere = { s.coreHere with morq := s.coreHere.morq ++ [c] } ∧ c.op = .qres (z = 1) ∧ c.ob = o.toNat ∧
       c.am = s.issue.am ∧
       (∀ e m, e < 16 → ((t.ctx s.home).engine e).record m
         = if s.issue.am.getLsbD e = true ∧ m = o.toNat then v else (x.engine e).record m) ∧
       (∀ e, { (t.ctx s.home).engine e with ob := [] } = { x.engine e with ob := [] }) ∧ t.thr = s.thr ∧ t.mem = s.mem) ∧
     (s.issue.checked = false → s.trapOk = true →
       (mgOk v = false → TrapsWith (.mset a b n) s 0x60 0 (n.setWidth 64)) ∧
       (tlOk v = false → TrapsWith (.cpyset a b n) s 0x80 0 (n.setWidth 64)) ∧
       (obOk v = false → TrapsWith (.qres a b z o) s 0x64 0 (o.setWidth 64)))) ∧
  (∀ (s : State) (a b : BitVec 5) (n : BitVec 4) (o : BitVec 3) (src : BitVec 2), s.gangOk = true →
     let rest (t : State) : Prop := s.OnlyCore { t with nextId := s.nextId } s.home.die s.home.core
     let matrix (i : Instr) (tern : Bool) : Prop :=
       ((s.rd a).toNat % 2 ^ 32 = 0 → exec i s = .next s) ∧
       ((s.rd a).toNat % 2 ^ 32 ≠ 0 → ∃ t m, exec i s = .next t ∧ rest t ∧ t.nextId = s.nextId + 1 ∧
         t.coreHere = { s.coreHere with matq := s.coreHere.matq ++ [m] } ∧ m.id = s.nextId ∧ m.by_ = s.issuer ∧
         m.tern = tern ∧ m.sa = s.rd a ∧ m.sb = s.rd b ∧ m.mg = s.mg n.toNat ∧ m.am = s.issue.am ∧ m.running = false)
     let mordant (i : Instr) (op : MordantOp) (sa sb : Word) : Prop :=
       Passes i s → ∃ t m, exec i s = .next t ∧ rest t ∧ t.nextId = s.nextId + 1 ∧
         t.coreHere = { s.coreHere with morq := s.coreHere.morq ++ [m] } ∧ m.id = s.nextId ∧ m.by_ = s.issuer ∧
         m.op = op ∧ m.ob = o.toNat ∧ m.sa = sa ∧ m.sb = sb ∧ m.am = s.issue.am ∧
         ∀ e, e < 16 → s.issue.am.getLsbD e = true → (e, s.ob e o.toNat) ∈ m.obs
     matrix (.mloop a b n) false ∧ matrix (.mtern a b n) true ∧
     mordant (.qcvt a b src o) (.qcvt src.toNat) (s.rd a) (s.rd b) ∧
     mordant (.qprune a b o) .qprune (s.rd a) (s.rd b) ∧ mordant (.qrel o) .qrel 0 0)

/-- R205 to R207: a copy joins its core's stream queue with both layout records it captured and counts in wc2, CPYY
with the continuation its literal displaces and one more posting to come; RINGSET joins the queue and counts in no
counter. R208: a gather command puts one request of each active engine at the end of its die's queue, in engine order,
with the record 64 bytes further for each engine number, and counts each in wc3. -/
def Obligations.CopiesAndGathersQueue : Prop :=
  (∀ (s : State) (a b : BitVec 5) (j : BitVec 2) (g sc side : BitVec 1) (n : BitVec 3) (m : BitVec 4), s.wholeOk = true →
     let copy (i : Instr) (cont : Option Word) (more : Nat) : Prop := ∃ t c, exec i s = .next t ∧
       t.coreHere = { s.coreHere with strq := s.coreHere.strq ++ [.copy c] } ∧ c.id = s.nextId ∧ c.by_ = s.issuer ∧
       c.sa = s.rd a ∧ c.sb = s.rd b ∧ c.src = s.tl (2 * n.toNat) ∧ c.dst = s.tl (2 * n.toNat + 1) ∧
       c.am = s.issue.am ∧ c.gang = (g == 1) ∧ c.cont = cont ∧ c.started = false ∧
       s.OnlyCtx { t with cores := s.cores, nextId := s.nextId } s.home ∧
       (t.ctx s.home).cpyy = s.tileCtx.cpyy + more ∧
       (∀ k, ngetD (t.ctx s.home).wc k 0 = ngetD s.tileCtx.wc k 0 + if k = 2 then 1 else 0) ∧
       { t.ctx s.home with cpyy := s.tileCtx.cpyy, wc := s.tileCtx.wc } = s.tileCtx
     copy (.cpy a b g n) none 0 ∧
     copy (.cpyy a b j g n) (some (BitVec.ofInt 64 (s.issue.addr.toInt + 4 * (s.lit (j.toNat + 1)).toInt))) 1 ∧
     (∃ t r, exec (.ringset a b sc side m) s = .next t ∧
       s.OnlyCore { t with nextId := s.nextId } s.home.die s.home.core ∧
       t.coreHere = { s.coreHere with strq := s.coreHere.strq ++ [.ring r] } ∧ r.id = s.nextId ∧ r.by_ = s.issuer ∧
       r.prod = (side == 1) ∧ r.sys = (sc == 1) ∧ r.desc = s.rd a ∧ r.base = s.rd b ∧ r.tl = s.tl m.toNat)) ∧
  (∀ (s : State) (a b : BitVec 5) (o : BitVec 3), s.gangOk = true → (s.rd a).toNat % 64 = 0 →
     let gathers (i : Instr) (ob : Nat → Option (BitVec 128)) : Prop := ∃ t l, exec i s = .next t ∧
       (t.die s.home.die).gq = (s.die s.home.die).gq ++ l ∧ l.map (·.eng) = s.activeLanes ∧
       (∀ g ∈ l, g.addr = BitVec.ofNat 64 ((s.rd a).toNat + 64 * g.eng) ∧ g.dst = s.rd b ∧ g.by_ = { s.issuer with order := g.id } ∧
         g.ob = ob g.eng) ∧
       (∀ k, ngetD (t.ctx s.home).wc k 0 = ngetD s.tileCtx.wc k 0 + if k = 3 then s.activeLanes.length else 0) ∧
       { t.ctx s.home with wc := [] } = { s.tileCtx with wc := [] } ∧ t.mem = s.mem ∧ t.cores = s.cores ∧ t.accs = s.accs
     gathers (.gthrSp a b) (fun _ => none) ∧ gathers (.gthrOb a b o) (fun e => some (s.ob e o.toNat)))

/-- R212, R218 to R220: COLL adds an instance of its own, which joins its group's when its descriptor has been read
(the model's way, log 39), and counts in wc2; NODESET gives the bin of its own die its buffer, batch size, record
size, timer and capacity and starts its slots anew; NODEPUT and LAUNCH begin the read of their record, LAUNCH as a
release at package scope; neither counts in a wait counter, which the model writes as a fifth one that nothing reads
(the model's choice, log 87). -/
def Obligations.GraphAndCollectiveWords : Prop :=
  ∀ (s : State) (a b : BitVec 5) (la : BitVec 4) (n : BitVec 6), s.wholeOk = true →
    let p := s.rd a
    let v := (s.rd b).toNat
    (p.toNat % 64 = 0 → ∃ t m i, exec (.coll a b) s = .next t ∧ t.colls = s.colls ++ [i] ∧ i.members = [m] ∧
      i.part = s.partN s.home.die ∧ i.formed = false ∧ m.id = s.nextId ∧ m.mem = v % 65536 ∧ m.desc = p ∧
      m.by_ = s.issuer ∧ s.OnlyCtx { t with colls := s.colls, nextId := s.nextId } s.home ∧
      (∀ k, ngetD (t.ctx s.home).wc k 0 = ngetD s.tileCtx.wc k 0 + if k = 2 then 1 else 0) ∧
      { t.ctx s.home with wc := [] } = { s.tileCtx with wc := [] }) ∧
    (Passes (.nodeset a b n) s → ∃ t, exec (.nodeset a b n) s = .next t ∧
      let k := t.bin s.home.die n.toNat
      k.buf = p ∧ k.coal = v % 4096 ∧ k.rsize = v / 2 ^ 12 % 16 ∧ k.timer = v / 2 ^ 16 % 65536 ∧
      k.cap = v / 2 ^ 32 % 65536 ∧ k.next = 0 ∧
      ((s.bin s.home.die n.toNat).batches.all (·.closed) = true →
        k.batches = (s.bin s.home.die n.toNat).batches ∧ { t with dies := s.dies } = s)) ∧
    (Passes (.nodeput a b la n) s → ∃ t, exec (.nodeput a b la n) s = .next t ∧
      s.Begins t .scalar (.nodeput (v % 32) n.toNat) (sectorPieces p.toNat (8 * (s.bin (v % 32) n.toNat).rsize))
        none none 4 la.toNat) ∧
    (p.toNat % 64 = 0 → ∃ t, exec (.launch a b la) s = .next t ∧
      s.Begins t .scalar (.launch (v % 64) a.toNat) (sectorPieces p.toNat 64) none (some .pkg) 4 la.toNat)

/-- R216, R217, R311: TURN clamps its count to 2 to 14 and returns it with a status, which stands in its register with
the bundle (the model's choice, log 34): 2 where the direction already holds that many groups, 4 where the context's
budget is spent, 3 where eight other requests wait, and otherwise 0, or 1 for a clamped count, with its request at the
end of the link's queue in place of an earlier one of its context. Requests of one cycle are entered in ascending
order of die on the queue as the cycle found it, so that a lower die's takes the last place from a higher one's, which
then returns 3 (the model's way to keep that order, log 34). LINKST returns the link's state. A link that does not
exist traps with 0x8B. -/
def Obligations.TurnAndLinkStatus : Prop :=
  ∀ (s : State) (a b : BitVec 5) (la : BitVec 4), s.gangOk = true →
    let v := (s.rd a).toNat
    let link := v % 64
    let n := v / 2 ^ 8 % 16
    let target := Nat.max 2 (Nat.min 14 n)
    let k := s.link link
    let c := s.home
    let others := k.queue.filter (fun r => r.ctx != c)
    let r : TurnReq := { ctx := c, die := c.die, target := target, prio := (s.rd b).toNat % 4, cycle := s.cycle,
                         spare := s.issue.part.spare, rd := a.toNat }
    let same := k.asked.any (fun q => q.cycle = s.cycle)
    let e := enterTurns (if same then k.before else k.queue) (insertBy (·.die) r (if same then k.asked else []))
    let lost := e.2.filter (fun q => q != r && k.queue.contains q)
    let answer (st : Nat) : Word := BitVec.ofNat 64 (target * 256 + st)
    let takes (t : State) (st : Nat) : Prop := (∀ m, m ≠ link → t.link m = s.link m) ∧
      ∀ q, t.thr.reg q = if q = a.toNat ∧ q ≠ 0 then answer st else s.thr.reg q
    let held := (k.carrying (upFrom link c.die)).length
    (Passes (.turn a b la) s →
      (held = target → Writes (.turn a b la) s a (answer 2)) ∧
      (held ≠ target → s.spent c = true → Writes (.turn a b la) s a (answer 4)) ∧
      (held ≠ target → s.spent c = false → same = false → 8 ≤ others.length →
        ∃ t, exec (.turn a b la) s = .next t ∧ s.OnlyThread { t with links := s.links } ∧ takes t 3 ∧
          { t.link link with asked := k.asked, before := k.before } = k) ∧
      (held ≠ target → s.spent c = false → same = false → others.length < 8 →
        ∃ t, exec (.turn a b la) s = .next t ∧ s.OnlyThread { t with links := s.links } ∧
          takes t (if target = n then 0 else 1) ∧
          { t.link link with asked := k.asked, before := k.before }
            = { k with queue := others ++ [r], auto := false, lastTurn := s.time }) ∧
      (held ≠ target → s.spent c = false → lost = [] →
        ∃ t, exec (.turn a b la) s = .next t ∧ s.OnlyThread { t with links := s.links } ∧
          takes t (if r ∈ e.2 then 3 else if target = n then 0 else 1) ∧ (t.link link).queue = e.1) ∧
      (∀ q, held ≠ target → s.spent c = false → lost = [q] → q.ctx.ok = true → q.ctx ≠ c →
        (q.spare = true → (s.ctx q.ctx).spare.isSome = true) → ∃ t, exec (.turn a b la) s = .next t ∧
          (t.link link).queue = e.1 ∧ (q.rd ≠ 0 → (t.thread (.gang q.ctx.die q.ctx.core q.ctx.ctx q.spare)).reg q.rd
            = BitVec.ofNat 64 (q.target * 256 + 3)))) ∧
    (Passes (.linkst a la) s → Writes (.linkst a la) s a (BitVec.ofNat 64
      ((k.carrying (upFrom link c.die)).length + (if k.turning.isSome then 16 else 0) + k.queue.length * 256
        + (if k.auto && !k.boundary then 4096 else 0) + if k.boundary then 8192 else 0))) ∧
    (37 < link → s.issue.checked = false → s.trapOk = true → s.inHalf = false →
      TrapsWith (.turn a b la) s 0x8B 0 (s.rd a) ∧ TrapsWith (.linkst a la) s 0x8B 0 (s.rd a))

/-- R62, R92, R158, R161, R162: tile words on bits, latency 2: bitwise operations, copies and selections element by
element, and shifts whose count at or past the width gives zero, or copies of the sign for VSHA. -/
def Obligations.TileBitOperations : Prop :=
  ∀ (s : State) (cl : Cluster) (f : Slot), s.gangOk = true →
    let w := fmtWidth f.fmt.toNat
    let a (x : Engine) (k : Nat) := elemAt w k (srcA x cl f)
    let b (x : Engine) (k : Nat) := elemAt w k (srcB s x cl f)
    let c (x : Engine) (k : Nat) := elemAt w k (srcC x cl f)
    let gives (i : Instr) (g : Engine → Nat → Nat) : Prop := GivesTile i s 2 cl f (fun _ x k => g x k)
    gives (.vand cl f) (fun x k => a x k &&& b x k) ∧ gives (.vor cl f) (fun x k => a x k ||| b x k) ∧
    gives (.vxor cl f) (fun x k => a x k ^^^ b x k) ∧ gives (.vnot cl f) (fun x k => 2 ^ w - 1 - a x k) ∧
    gives (.vmov cl f) a ∧ gives (.vsel cl f) (fun x k => if c x k = 0 then b x k else a x k) ∧
    gives (.vshl cl f) (fun x k => if b x k < w then a x k * 2 ^ b x k % 2 ^ w else 0) ∧
    gives (.vshr cl f) (fun x k => if b x k < w then a x k / 2 ^ b x k else 0) ∧
    gives (.vsha cl f) (fun x k => (signedOf w (a x k) / 2 ^ Nat.min (b x k) w % 2 ^ w).toNat)

/-- R68, R160, R161: tile arithmetic on an integer format: exact, then clamped with .sat or wrapped; compares give all
ones or zero, and minimum, maximum and clamp choose a value. -/
def Obligations.TileIntegers : Prop :=
  ∀ (s : State) (cl : Cluster) (f : Slot), s.gangOk = true → 6 ≤ f.fmt.toNat → f.fmt.toNat ≤ 10 →
    let fm := f.fmt.toNat
    let w := fmtWidth fm
    let a (x : Engine) (k : Nat) := intOf fm (elemAt w k (srcA x cl f))
    let b (x : Engine) (k : Nat) := intOf fm (elemAt w k (srcB s x cl f))
    let c (x : Engine) (k : Nat) := intOf fm (elemAt w k (srcC x cl f))
    let gives (i : Instr) (n : Nat) (g : Engine → Nat → Int) : Prop := GivesTile i s n cl f (fun _ x k => narrowed f (g x k))
    let picks (i : Instr) (g : Engine → Nat → Int) : Prop := GivesTile i s 2 cl f (fun _ x k => intBits fm (g x k))
    let tests (i : Instr) (g : Engine → Nat → Bool) : Prop := GivesTile i s 2 cl f (fun _ x k => if g x k then 2 ^ w - 1 else 0)
    gives (.vadd cl f) 2 (fun x k => a x k + b x k) ∧ gives (.vsub cl f) 2 (fun x k => a x k - b x k) ∧
    gives (.vmul cl f) 2 (fun x k => a x k * b x k) ∧ gives (.vfma cl f) 4 (fun x k => a x k * b x k + c x k) ∧
    gives (.vfms cl f) 4 (fun x k => a x k * b x k - c x k) ∧ gives (.vfnma cl f) 4 (fun x k => c x k - a x k * b x k) ∧
    gives (.vabs cl f) 2 (fun x k => (a x k).natAbs) ∧ gives (.vneg cl f) 2 (fun x k => -a x k) ∧
    picks (.vmin cl f) (fun x k => Min.min (a x k) (b x k)) ∧ picks (.vmax cl f) (fun x k => Max.max (a x k) (b x k)) ∧
    picks (.vclamp cl f) (fun x k => Min.min (Max.max (a x k) (b x k)) (c x k)) ∧
    tests (.vcmpeq cl f) (fun x k => a x k == b x k) ∧ tests (.vcmplt cl f) (fun x k => decide (a x k < b x k)) ∧
    tests (.vcmple cl f) (fun x k => decide (a x k ≤ b x k))

/-- R62, R67, R69, R160, R161, R183: tile arithmetic on a floating-point format: the exact value of the operands as
FTZ reads them, rounded once; the special functions likewise, latency 8; compares of numbers order them, and a NaN is
unordered. -/
def Obligations.TileFloats : Prop :=
  ∀ (s : State) (cl : Cluster) (f : Slot), s.gangOk = true → f.fmt.toNat < 6 →
    let fm := f.fmt.toNat
    let w := fmtWidth fm
    let z := s.issue.ftz
    let rm := f.rm.toNat
    let a (cl : Cluster) (x : Engine) (k : Nat) := readFtz z fm (elemAt w k (srcA x cl f))
    let b (x : Engine) (k : Nat) := readFtz z fm (elemAt w k (srcB s x cl f))
    let c (x : Engine) (k : Nat) := readFtz z fm (elemAt w k (srcC x cl f))
    let out (sat : Bool) (v : Val × Flags) : Nat := (roundFtz z fm v rm sat).1 % 2 ^ w
    let gives (i : Instr) (n : Nat) (g : Engine → Nat → Val × Flags) : Prop :=
      GivesTile i s n cl f (fun _ x k => out (f.sat == 1) (g x k))
    let picks (i : Instr) (g : Engine → Nat → Nat) : Prop := GivesTile i s 2 cl f (fun _ x k => g x k % 2 ^ w)
    let pick (op : Nat) (u v : Nat) : Nat := (reduceNode op fm z 0 false u v).1
    let special_ (i : Instr) (op : Nat) : Prop := GivesTile i s 8 (slotCluster f) f
      (fun _ x k => out false (special op (a (slotCluster f) x k)))
    let tests (i : Instr) (g : Int → Bool) : Prop := GivesTile i s 2 cl f (fun _ x k =>
      if !(a cl x k).isNan && !(b x k).isNan && g ((a cl x k).cmp (b x k)) then 2 ^ w - 1 else 0)
    gives (.vadd cl f) 2 (fun x k => (a cl x k).add (b x k) rm) ∧ gives (.vsub cl f) 2 (fun x k => (a cl x k).add (b x k).neg rm) ∧
    gives (.vmul cl f) 2 (fun x k => (a cl x k).mul (b x k)) ∧
    gives (.vfma cl f) 4 (fun x k => (a cl x k).fma (b x k) (c x k) false rm) ∧
    gives (.vfms cl f) 4 (fun x k => (a cl x k).fma (b x k) (c x k).neg false rm) ∧
    gives (.vfnma cl f) 4 (fun x k => (a cl x k).fma (b x k) (c x k) true rm) ∧
    gives (.vabs cl f) 2 (fun x k => (a cl x k).abs.quiet) ∧ gives (.vneg cl f) 2 (fun x k => (a cl x k).neg.quiet) ∧
    picks (.vmin cl f) (fun x k => pick 1 (elemAt w k (srcA x cl f)) (elemAt w k (srcB s x cl f))) ∧
    picks (.vmax cl f) (fun x k => pick 2 (elemAt w k (srcA x cl f)) (elemAt w k (srcB s x cl f))) ∧
    picks (.vclamp cl f) (fun x k => pick 1 (pick 2 (elemAt w k (srcA x cl f)) (elemAt w k (srcB s x cl f)))
      (elemAt w k (srcC x cl f))) ∧
    (tests (.vcmpeq cl f) (fun i => decide (i = 0)) ∧ tests (.vcmplt cl f) (fun i => decide (i < 0)) ∧
      tests (.vcmple cl f) (fun i => decide (i ≤ 0))) ∧
    (special_ (.vrcp f) 0 ∧ special_ (.vsqrt f) 1 ∧ special_ (.vrsq f) 2 ∧ special_ (.vexp2 f) 3 ∧ special_ (.vlog2 f) 4)

/-- R163 to R166, R176, R374: conversions, fills, row and column reductions, transposes and copies between clusters. A
conversion that meets a byte without trits in an active lane also raises 0x24 with the lane and the byte. -/
def Obligations.TileShaping : Prop :=
  ∀ (s : State) (cl : Cluster) (f : Slot), s.gangOk = true →
    let fm := f.fmt.toNat
    let w := fmtWidth fm
    let n (x : Engine) : Nat := rowElems fm (slotShape x f).2
    let a (x : Engine) (k : Nat) := elemAt w k (srcA x cl f)
    let bad := s.firstLane (fun _ x => firstBadTrit x f (srcA x cl f))
    let conv (e : Nat) (x : Engine) : Nat × TileBits :=
      let r := convertTile s.issue.ftz (s.tileCtx.helper e) x f (srcA x cl f)
      (r.1, r.2.1)
    let sums (i : Instr) (op : Nat) (cols : Bool) : Prop := ∃ t ds, exec i s = .next t ∧ s.Exposes t 4 ds ∧
      ds.map Dest.eng = s.acting ∧ ∀ d ∈ ds, ∃ v m, d = .tile d.eng cl (regNum f.dst) v m ∧
        let x := s.tileCtx.engine d.eng
        let rows := (slotShape x f).1
        (∀ j, j < 16384 → m.getLsbD j = decide (if cols then j / w < n x else j / w % n x = 0 ∧ j / w < rows * n x)) ∧
        ∀ k, k < (if cols then n x else rows) → ((if cols then k else k * n x) + 1) * w ≤ 16384 →
          elemAt w (if cols then k else k * n x) v.toNat
            = ((tree (reduceNode op fm s.issue.ftz f.rm.toNat (f.sat == 1)) 10
                (if cols then (List.range rows).map (fun i => some (a x (i * n x + k)))
                 else (List.range (n x)).map (fun c => some (a x (k * n x + c))))).1).getD 0 % 2 ^ w
    (bad = none → GivesBits (.vcvt cl f) s 3 cl f conv) ∧
    (∀ e k, bad = some (e, k) → ∃ t u, exec (.vcvt cl f) s = .next (u.raiseBy s.issuer 0x24 2
        (BitVec.ofNat 64 (e * 2 ^ 16 + k % 2 ^ 11)) e) ∧ s.Exposes u 3 t) ∧
    (fm ≤ 9 → f.kind = 0 ∨ f.kind = 1 ∨ f.kind = 3 → GivesTile (.vbcast cl f) s 2 cl f (fun _ x k => if f.kind = 0 then
        (if f.md.getLsbD 0 then a x (k / n x * n x) else a x (k % n x)) else elemAt w k (srcB s x cl f))) ∧
    GivesTile (.viota cl f) s 2 cl f (fun _ x k => (convertVal s.issue.ftz fm f.rm.toNat (f.sat == 1) 6
      (.ofInt (iotaBase s x f + k))).1 % 2 ^ w) ∧
    (fm ≤ 10 → sums (.vrsum cl f) 0 false ∧ sums (.vcsum cl f) 0 true ∧ sums (.vrmax cl f) 2 false ∧
      sums (.vcmax cl f) 2 true) ∧
    ((∀ e ∈ s.acting, derivedOk (trnShape (s.tileCtx.engine e) f).1 (trnShape (s.tileCtx.engine e) f).2 = true) →
      Passes (.vtrn cl f) s → GivesTile (.vtrn cl f) s 4 cl f
        (fun _ x k => a x (k % (slotShape x f).1 * n x + k / (slotShape x f).1))) ∧
    GivesTile (.xcp f) s 1 (slotCluster f) f
      (fun _ x k => elemAt w k (x.tile (otherCluster (slotCluster f)) (regNum f.srca)).toNat)

/-- R35, R49, R177 to R179: QXCH and GSHF give each acting engine the tile of the engine it reads where that one is
readable, and otherwise its fill: zero, its own tile, its literal, the least or greatest value or the canonical NaN,
and with fill 1 its destination keeps its value. In a half a helper of the other half is not readable (the model's
choice, log 102). -/
def Obligations.TileExchanges : Prop :=
  ∀ (s : State) (f : Slot), s.gangOk = true →
    let fm := f.fmt.toNat
    let w := fmtWidth fm
    let cl := slotCluster f
    let least : Nat := if fm = 4 then maxBits fm true else if fm < 6 then infBits fm true else intBits fm (intMin fm)
    let greatest : Nat := if fm = 4 then maxBits fm false else if fm < 6 then infBits fm false else intBits fm (intMax fm)
    let fill (x : Engine) (k : Nat) : Nat :=
      if f.fill = 0 then 0 else if f.fill = 2 then elemAt w k (srcA x cl f)
      else if f.fill = 3 then litElem fm (s.lit f.lit.toNat) else if f.fill = 4 then least
      else if f.fill = 5 then greatest else canonicalNan fm
    let value (from_ : Nat → Option Nat) (e : Nat) (x : Engine) (k : Nat) : Nat :=
      match from_ e with
      | some j => elemAt w k (srcA (s.tileCtx.engine j) cl f)
      | none => fill x k % 2 ^ w
    let gives (i : Instr) (n : Nat) (from_ : Nat → Option Nat) : Prop :=
      GivesLive i s n f (fun e => f.fill != 1 || (from_ e).isSome) (value from_)
    let m := f.md.toNat % 8
    gives (.qxch f) 2 (fun e =>
      let j := if m < 4 then e / 4 * 4 + m else e ^^^ (m - 3)
      if j ∈ s.acting then some j else none) ∧
    gives (.gshf f) 4 (fun e =>
      let v := ((s.tileCtx.engine e).scalar (f.srcb.toNat % 16)).toNat
      let j := if m = 0 then v else if m = 1 then e - v else if m = 2 then e + v else if m = 3 then (e + v) % 16
        else e ^^^ (v % 16)
      if (m = 0 → v ≤ 15) ∧ (m = 1 → v ≤ e) ∧ (m = 2 → e + v ≤ 15) ∧ j < 16 ∧ s.issue.am.getLsbD j = true then some j else none)

/-- R76, R180 to R182: gang reductions and scans over the active lanes in their fixed order, latency 6, and the
multiplicity of each index at its highest position, latency 4. -/
def Obligations.GangOperations : Prop :=
  ∀ (s : State) (f : Slot), s.gangOk = true →
    let fm := f.fmt.toNat
    let w := fmtWidth fm
    let node := gangNode s f
    let a (e k : Nat) : Nat := elemAt w k (srcA (s.tileCtx.engine e) (slotCluster f) f)
    let root := reduceRoot (f.md.toNat % 4) fm
    let count (x : Engine) : Nat := (slotShape x f).1 * rowElems fm (slotShape x f).2
    GivesTile (.gred f) s 6 (slotCluster f) f (fun _ _ k => ((tree node 4 ((List.range 16).map
      (fun j => if s.issue.am.getLsbD j then some (a j k) else none))).1).getD root % 2 ^ w) ∧
    GivesTile (.gscan f) s 6 (slotCluster f) f (fun e _ k =>
      (((List.range (e + 1)).filter (fun j => s.issue.am.getLsbD j)).foldl
        (fun v j => some (match v with | none => a j k | some u => (node u (a j k)).1)) none).getD root % 2 ^ w) ∧
    GivesLive (.gseg f) s 6 f (fun e => s.issue.am.getLsbD e)
      (fun e _ k => at' (((segScan s f).filter (fun p => p.1 = e)).map (·.2.1)) k 0 % 2 ^ w) ∧
    (w = 32 → GivesTile (.confd f) s 4 (slotCluster f) f (fun _ x k =>
      let v (j : Nat) : Nat := elemAt 32 j (srcA x (slotCluster f) f)
      if (List.range (count x)).any (fun j => k < j && v j == v k) then 0
      else (List.range (count x)).countP (fun j => v j == v k)))

/-- R184 to R186: operations on engine scalars, condition bits and shape registers, latency 1, in every acting engine.
-/
def Obligations.EngineScalarOperations : Prop :=
  ∀ (s : State) (f : Slot), s.gangOk = true →
    let w := fmtWidth f.fmt.toNat
    let d := f.dst.toNat % 16
    let a (x : Engine) : Word := x.scalar (f.srca.toNat % 16)
    let b (x : Engine) : Word := srcE s x f
    let tile (x : Engine) : Nat := (x.tile (slotCluster f) (regNum f.srca)).toNat
    let at_ (x : Engine) : Nat := (b x).toNat % (16384 / w)
    let count (x : Engine) : Nat := (slotShape x f).1 * rowElems f.fmt.toNat (slotShape x f).2
    let m := f.md.toNat % 8
    let holds (u v : Word) : Bool := if m = 0 then u == v else if m = 1 then u != v else if m = 2 then decide (u.toInt < v.toInt)
      else if m = 3 then decide (u.toInt ≤ v.toInt) else if m = 4 then decide (u.toNat < v.toNat) else decide (u.toNat ≤ v.toNat)
    GivesEngine (.eadd f) s (fun e x => [.e e d (BitVec.ofNat 64 ((a x).toNat + (b x).toNat))]) ∧
    GivesEngine (.esub f) s (fun e x => [.e e d (BitVec.ofInt 64 ((a x).toInt - (b x).toInt))]) ∧
    GivesEngine (.emul f) s (fun e x => [.e e d (BitVec.ofNat 64 ((a x).toNat * (b x).toNat))]) ∧
    GivesEngine (.emov f) s (fun e x => [.e e d (b x)]) ∧
    GivesEngine (.ecmp f) s (fun e x => [.k e (f.dst.toNat % 4) (holds (a x) (b x))]) ∧
    GivesEngine (.eext f) s (fun e x => [.e e d (if isSignedFmt f.fmt.toNat
      then BitVec.ofInt 64 (signedOf w (elemAt w (at_ x) (tile x))) else BitVec.ofNat 64 (elemAt w (at_ x) (tile x)))]) ∧
    (∃ t ds, exec (.eins f) s = .next t ∧ s.Exposes t 1 ds ∧ ds.map Dest.eng = s.acting ∧
      ∀ y ∈ ds, ∃ v mask, y = .tile y.eng (slotCluster f) (regNum f.dst) v mask ∧
        let x := s.tileCtx.engine y.eng
        elemAt w (at_ x) v.toNat = (a x).toNat % 2 ^ w ∧
        ∀ j, j < 16384 → mask.getLsbD j = decide (j / w = at_ x)) ∧
    GivesEngine (.anyk f) s (fun e x =>
      [.k e (f.dst.toNat % 4) ((List.range (count x)).any (fun k => elemAt w k (tile x) != 0))]) ∧
    GivesEngine (.allk f) s (fun e x =>
      [.k e (f.dst.toNat % 4) ((List.range (count x)).all (fun k => elemAt w k (tile x) != 0))]) ∧
    (Passes (.setsh f) s → GivesEngine (.setsh f) s (fun e x =>
      let c := (b x).setWidth 8
      if shapeLegal c then [.sh e (f.dst.toNat % 4) c] else []))

/-- R167, R254, R256, R304: scratchpad rows. With no window store of its part on its way, and no write of this cycle
that comes after the part's in the order of R256, LDS gives each acting engine its rows' bytes, latency 3, zero where
a helper's row may not be read; STS writes the active lanes' rows in order, no other byte; the window form of a store
travels, writes nothing yet, and writes its bytes, and no other, where it lands. A store writes as its bundle issues
(the model's reading, log 12); a window load takes its bytes then, while its transfer travels (the model's choice, log
50). -/
def Obligations.ScratchpadRows : Prop :=
  ∀ (s : State) (f : Slot), s.gangOk = true → s.ownStores s.issue.part (clusterOf s.home.core) = [] →
    let h := s.home
    let byte (u : State) (core e a : Nat) : Byte := blocksByte (u.core h.die core).spad 128 e a
    let rb (x : Engine) : Nat := (slotShape x f).2
    let runs := s.rowRuns f s.activeLanes
    let k := s.core h.die h.core
    (Passes (.lds f) s → ∃ t ds, exec (.lds f) s = .next t ∧
      t.thr = { s.thr with pend := s.thr.pend ++ [{ r := 3, order := s.nextId, bundle := s.issue.first, dest := ds }] } ∧
      TileDests s (slotCluster f) f 8 (fun _ => true) (fun e x k =>
        match s.rowPlace f e x (k / rb x) with
        | some (core, eng, a) => (byte s core eng (a + k % rb x)).toNat
        | none => 0) ds ∧
      { t with ctxs := s.ctxs, nextId := s.nextId, clusters := s.clusters } = s ∧
      (f.md.getLsbD 0 = false → s.Exposes t 3 ds)) ∧
    (Passes (.sts f) s → f.md.getLsbD 0 = false → (∀ r ∈ runs, r.2.2.2.2.2 + r.2.2.1 ≤ 262144) →
      (k.writtenAt = s.cycle → ∀ w ∈ k.written, w.rank ≤ tileRank s.issue.part) → ∃ t, exec (.sts f) s = .next t ∧
      s.OnlyCore t h.die h.core ∧ t.thr = s.thr ∧
      (∀ e a, e < 16 → a < 262144 → (∀ r ∈ runs, r.2.2.2.2.1 = e → a < r.2.2.2.2.2 ∨ r.2.2.2.2.2 + r.2.2.1 ≤ a) →
        byte t h.core e a = byte s h.core e a) ∧
      (∀ pre e i n g a post, runs = pre ++ (e, i, n, h.core, g, a) :: post →
        (∀ r ∈ post, r.2.2.2.2.1 = g → r.2.2.2.2.2 + r.2.2.1 ≤ a ∨ a + n ≤ r.2.2.2.2.2) →
        ∀ k, k < n → byte t h.core g (a + k) = at' (s.rowData f e i) k 0)) ∧
    (Passes (.sts f) s → f.md.getLsbD 0 = true → ∃ t, exec (.sts f) s = .next t ∧ t.cores = s.cores ∧ t.ctxs = s.ctxs ∧
      (t.indigo h.die (clusterOf h.core)).waiting = (s.indigo h.die (clusterOf h.core)).waiting
        ++ windowTransfers s.nextId s.issue.part (corePos h.core) true s.time (rowPieces runs (fun e i => s.rowData f e i))) ∧
    (∀ d c m core e a l n, d < 24 → c < 12 → core < 48 → e < 16 → l ≠ [] → a + l.length ≤ 262144 →
      (s.indigo d c).flying = [m] → m.landsAt = some n → n ≤ s.cycle → m.copy = false → m.writes = [(core, e, a, l)] →
      ((s.core d core).writtenAt = s.cycle → ∀ w ∈ (s.core d core).written, w.rank ≤ tileRank m.who) →
      ∃ t, exec (.indigoDelivery d c) s = .next t ∧ (t.indigo d c).flying = [] ∧
        (t.indigo d c).waiting = (s.indigo d c).waiting ∧
        (∀ g x, g < 16 → x < 262144 → blocksByte (t.core d core).spad 128 g x
          = if g = e ∧ a ≤ x ∧ x < a + l.length then at' l (x - a) 0 else blocksByte (s.core d core).spad 128 g x) ∧
        (∀ d' c', d' < 24 → c' < 48 → (d', c') ≠ (d, core) → t.core d' c' = s.core d' c') ∧
        { t with cores := s.cores, clusters := s.clusters } = s)

/-- R72, R168, R377, R418: OSB ranges. LDO gives each element of a valid range, scaled and rounded to the slot's
format, latency 3. A byte of 243 or more of a .ter range supplies five trits of 0 to a helper; in an active lane the
positions it supplies keep their values, and the first such position, in order of engine and position, is raised as
0x24 with its engine and index. STO writes its elements after division by their scales into the active lanes' ranges,
and no other storage, as its bundle issues (the model's reading, log 12); a scale of zero makes an element the
rounding of a NaN, a NaN scale passes as a NaN operand does (the model's reading, log 54). -/
def Obligations.OsbRanges : Prop :=
  ∀ (s : State) (f : Slot), s.gangOk = true →
    let h := s.home
    let w := fmtWidth f.fmt.toNat
    let rec_ (x : Engine) : BitVec 128 := x.record (f.srcb.toNat % 8)
    let ok (x : Engine) : Bool := obValid (rec_ x) s.tileCtx.osbSize
    (Passes (.ldo f) s → f.fmt.toNat ≤ 9 → (∀ e, obEfmt (rec_ (s.tileCtx.engine e)) ≠ 11) →
      GivesTile (.ldo f) s 3 (slotCluster f) f (fun e x k =>
        let j := osbIndex s x f k
        let v := s.rangeNum h e (rec_ x)
        if ok x && decide (0 ≤ j) && decide (j < obCount (rec_ x)) then
          (roundTo f.fmt.toNat (rangeValue (rec_ x) v j.toNat (elemAt (fmtWidth (obEfmt (rec_ x))) j.toNat v)).1
            f.rm.toNat (f.sat == 1)).1 % 2 ^ w
        else 0)) ∧
    (Passes (.ldo f) s → f.fmt.toNat ≤ 9 →
      let eng (e : Nat) : Engine := s.tileCtx.engine e
      let range_ (e : Nat) : Nat := s.rangeNum h e (rec_ (eng e))
      let index (e k : Nat) : Int := osbIndex s (eng e) f k
      let within (e k : Nat) : Bool := ok (eng e) && decide (0 ≤ index e k) && decide (index e k < obCount (rec_ (eng e)))
      let noTrits (e k : Nat) : Bool := obEfmt (rec_ (eng e)) == 11 && within e k
        && decide (243 ≤ range_ e >>> (8 * ((index e k).toNat / 5)) % 256) && !(s.tileCtx.helper e)
      let count (e : Nat) : Nat := (slotShape (eng e) f).1 * rowElems f.fmt.toNat (slotShape (eng e) f).2
      let first := s.activeLanes.findSome? (fun e => ((List.range (count e)).find? (noTrits e)).map (fun k => (e, k)))
      ∃ u ds, s.Exposes u 3 ds ∧ ds.map Dest.eng = s.acting ∧
        exec (.ldo f) s = .next (match first with
          | none => u
          | some (e, k) => u.raiseBy s.issuer 0x24 2 (BitVec.ofNat 64 (e * 2 ^ 16 + k % 2 ^ 11)) e) ∧
        ∀ y ∈ ds, ∃ v m, y = .tile y.eng (slotCluster f) (regNum f.dst) v m ∧
          (∀ i, i < 16384 → m.getLsbD i = (decide (i / w < count y.eng) && !noTrits y.eng (i / w))) ∧
          ∀ k, k < count y.eng → (k + 1) * w ≤ 16384 → noTrits y.eng k = false → elemAt w k v.toNat =
            if within y.eng k then
              (roundTo f.fmt.toNat (rangeValue (rec_ (eng y.eng)) (range_ y.eng) (index y.eng k).toNat
                ((rangeElem (obEfmt (rec_ (eng y.eng))) (range_ y.eng) (index y.eng k).toNat).getD 1)).1
                f.rm.toNat (f.sat == 1)).1 % 2 ^ w
            else 0) ∧
    (Passes (.sto f) s → ∃ t, exec (.sto f) s = .next t ∧ t.thr = s.thr ∧ t.mem = s.mem ∧ t.accs = s.accs ∧
      (∀ e, { t.core h.die h.core with osb := [] } = { s.core h.die h.core with osb := [] } ∧
        (t.ctx h).engine e = (s.ctx h).engine e) ∧
      t.cores = (s.activeLanes.foldl (fun u e =>
        let x := s.tileCtx.engine e
        let v := u.rangeNum h e (rec_ x)
        let j := (osbIndex s x f 0).toNat
        let n := (slotShape x f).1 * rowElems f.fmt.toNat (slotShape x f).2
        u.rangeWrite h e (rec_ x) j ((List.range n).map (fun k =>
          (roundTo (obEfmt (rec_ x)) (rangeQuotient (rec_ x) v (j + k)
            (valOf f.fmt.toNat (elemAt w k (srcC x (slotCluster f) f)))).1 f.rm.toNat (f.sat == 1)).1))) s).cores)

/-- R169 to R174, R187: tile accesses to global memory begin one access of their operation with its pieces, loads and
returning atomics counted in wc0, the others in wc1; one in which no element takes part counts nothing. -/
def Obligations.TileAccessesBegin : Prop :=
  ∀ (s : State) (f : Slot), s.gangOk = true →
    let cl := slotCluster f
    let r := regNum f.dst
    let begins (i : Instr) (op : AccessOp) (pieces : List Piece) (wc : Nat) : Prop := Passes i s →
      ∃ t, exec i s = .next t ∧
        (pieces ≠ [] → s.Begins t .tile op pieces none none wc (f.md.toNat % 16)) ∧
        (pieces = [] → t.accs = s.accs.filter (fun a => a.id != s.nextId) ∧ t.thr = s.thr ∧ t.mem = s.mem ∧
          ∀ n, t.wcOf s.issue.part n = s.wcOf s.issue.part n)
    let ret := f.rm.getLsbD 1
    begins (.ldg f) (.loadTile cl r) (s.globalPieces f s.acting (fun _ _ => [])) 0 ∧
    begins (.stg f) .store (s.globalPieces f s.activeLanes (fun e i => s.rowData f e i)) 1 ∧
    begins (.scat f) .store (s.indexPieces f) 1 ∧
    begins (.scadd f) (.scadd f.fmt.toNat)
      (s.activeLanes.flatMap (fun e => foldLeaders f.fmt.toNat ((s.indexPieces f).filter (fun p => p.eng = e)))) 1 ∧
    begins (.vatom f) (.vatom (f.fill.toNat % 8) f.fmt.toNat (if ret then some (cl, r) else none)) (s.indexPieces f)
      (if ret then 0 else 1) ∧
    (Passes (.gath f) s → ∃ t, exec (.gath f) s = .next t ∧ t.thr.regs = s.thr.regs ∧ t.mem = s.mem ∧
      ((∃ e ∈ s.acting, ∃ p ∈ indexElems (s.tileCtx.engine e) f, p.2 ≠ .outside) →
        ∃ pieces, s.Begins t .tile (.loadTile cl r) pieces none none 0 (f.md.toNat % 16) ∧
          ∀ e ∈ s.acting, ∀ k va, (k, IndexFate.addr va) ∈ indexElems (s.tileCtx.engine e) f →
            va % (fmtWidth f.fmt.toNat / 8) = 0 →
            ∃ p ∈ pieces, p.va = va ∧ p.eng = e ∧ p.elem = k ∧ p.len = fmtWidth f.fmt.toNat / 8 ∧ p.st = .open_))

/-- R104, R117, R121, R170, R392, R210: a load's piece that may be performed now lands. A scalar load writes its
register, zero- or sign-extended, but not s0, nor one a later word of its bundle wrote (the model's reading, log 14);
a tile load writes its bytes of one tile register of its engine and no other; an LKFETCH writes its thread's local
store; each then is complete and its counter falls by one, memory unchanged. The value is what memory and the stores
of the core's L1 store path hold, or what the load took of them before an acquire it stands behind (the model's way,
logs 15 and 17). With no other failed access of its context outstanding, a line that cannot be read gives the issuer a
cause of kind 3 with the access's address, of a poisoned line the line's. -/
def Obligations.LoadsLand : Prop :=
  ∀ (s : State) (id : Nat) (a : Access) (p : Piece) (pa : Nat), s.Sole id a p pa →
    let l := (p.took.getD (s.takeValue a p)).1
    let part := s.partN a.who.die
    (∀ rd size sgn, a.op = .loadReg rd size sgn → 1 ≤ size → size ≤ 8 → s.readFault part pa = none →
      rd < 24 ∨ a.by_.inHandler = (s.thread a.who).handler.isSome →
      ∃ t, exec (.globalLoadSectorLand id 0 false) s = .next t ∧ s.Completes t id a ∧ t.mem = s.mem ∧
        s.Takes t a rd (if sgn then (BitVec.ofNat (8 * size) (ofBytes l)).signExtend 64 else BitVec.ofNat 64 (ofBytes l))) ∧
    (∀ cl reg, a.op = .loadTile cl reg → s.readFault part pa = none → a.by_.ctx.ok = true → ngetD a.dead p.eng 0 = 0 →
      p.off + l.length ≤ 2048 → a.who.ctx? = some a.by_.ctx →
      ∃ t, exec (.globalLoadSectorLand id 0 false) s = .next t ∧ s.Completes t id a ∧ t.mem = s.mem ∧
        let old := (s.ctx a.by_.ctx).engine p.eng
        let new := (t.ctx a.by_.ctx).engine p.eng
        (∀ k, k < l.length → some (BitVec.ofNat 8 (elemAt 8 (p.off + k) (new.tile cl reg).toNat)) = l[k]?) ∧
        (∀ k, k < p.off ∨ p.off + l.length ≤ k → elemAt 8 k (new.tile cl reg).toNat = elemAt 8 k (old.tile cl reg).toNat) ∧
        new = old.setTile cl reg (new.tile cl reg) ∧
        (∀ e, e ≠ p.eng → (t.ctx a.by_.ctx).engine e = (s.ctx a.by_.ctx).engine e)) ∧
    (∀ dst d i, a.op = .lkfetch dst → a.who = .ochre d i → s.readFault part pa = none →
      ∃ t, exec (.lkfetchLand id) s = .next t ∧ s.Completes t id a ∧ t.mem = s.mem ∧
        (∀ k, k < l.length → (t.ochre d i).read (dst + k) 1 = (l.drop k).take 1) ∧
        (∀ k, k < dst ∨ dst + l.length ≤ k → (t.ochre d i).read k 1 = (s.ochre d i).read k 1)) ∧
    (∀ rd size sgn c, a.op = .loadReg rd size sgn → s.readFault part pa = some c → p.helper = false →
      a.who.ctx? = some a.by_.ctx → s.hears a.by_.ctx = true →
      (∀ b ∈ s.accs, b.ctxOf = a.ctxOf → b.failure = none) →
      ∃ t, exec (.globalLoadSectorLand id 0 false) s = .next t ∧ s.Completes t id a ∧
        s.Raises t a.by_ c 3 (BitVec.ofNat 64 (if c = 0x49 then p.va / 64 * 64 else p.va)) p.eng 0 ∧
        ∀ n, (t.thread a.who).reg n = (s.thread a.who).reg n)

/-- R121, R122, R172 to R174, R258: a store's piece is written at its home: those bytes of memory take its data and no
other byte changes. An atomic's piece takes the old bytes and writes the new value, and its return writes the register
or nothing, nor where a later word of its bundle wrote that register (the model's reading, log 14); an acknowledged
store's counter falls by one. A place that cannot be reached, host memory with its link down or another module without
a port, is not written (log 55 where the die on the way is contained). A piece that a release has performed before
what it orders is acknowledged without another write (the model's way, log 17). -/
def Obligations.StoresPerform : Prop :=
  ∀ (s : State) (id : Nat) (a : Access) (p : Piece) (pa : Nat), s.mem.wf → p.data.length = p.len → p.took = none →
      s.Sole id a p pa →
    let part := s.partN a.who.die
    let old := s.mem.read pa p.len
    let writes (new : List Byte) : Prop := ∃ t, exec (.storePerformAtHome id 0) s = .next t ∧
      (∀ x, t.mem.byte x = if pa ≤ x ∧ x < pa + p.len then (new[x - pa]?).getD 0 else s.mem.byte x) ∧
      t.accs.filter (fun b => b.id == id) = [{ a with pieces := [{ p with st := .acked, old := old }] }] ∧
      t.ctxs = s.ctxs ∧ ∀ d, { t.die d with l2 := [], routers := [] } = { s.die d with l2 := [], routers := [] }
    (a.op = .store → p.st = .open_ → s.cutOff part pa = none → writes p.data) ∧
    (a.op.isLoad = false → p.st = .early → ∃ t, exec (.storePerformAtHome id 0) s = .next t ∧ t.mem = s.mem ∧
      t.accs.filter (fun b => b.id == id) = [{ a with pieces := [{ p with st := .acked }] }]) ∧
    (∀ op n rd cmp, a.op = .amo op n rd cmp → p.st = .open_ → p.len = n → n = 4 ∨ n = 8 → s.readFault part pa = none →
      let x := ofBytes old
      let y := ofBytes p.data
      let sx := signedOf (8 * n) x
      let sy := signedOf (8 * n) y
      (op = 0 → writes (toBytes n ((x + y) % 2 ^ (8 * n)))) ∧
      (op = 1 → writes (toBytes n (reduceNode 0 (if n = 8 then 0 else 1) false 0 false x y).1)) ∧ (op = 2 → writes (toBytes n (x &&& y))) ∧
      (op = 3 → writes (toBytes n (x ||| y))) ∧ (op = 4 → writes (toBytes n (x ^^^ y))) ∧
      (op = 5 → writes (if sy < sx then p.data else old)) ∧ (op = 6 → writes (if sx < sy then p.data else old)) ∧
      (op = 7 → writes (if y < x then p.data else old)) ∧ (op = 8 → writes (if x < y then p.data else old)) ∧
      (op = 9 → writes p.data) ∧ (op = 10 → writes (if x = cmp.toNat % 2 ^ (8 * n) then p.data else old))) ∧
    (a.op = .store → p.st = .open_ → ∀ c, s.cutOff part pa = some c → ∃ t, exec (.storePerformAtHome id 0) s = .next t ∧ t.mem = s.mem ∧
      t.accs.filter (fun b => b.id == id) = [{ a with pieces := [{ p with st := .failed c }] }]) ∧
    (∀ q, q.st = .acked → q.old.length = q.len →
      let done := { a with pieces := [q] }
      let u := { s with accs := [done] }
      (a.op = .store → ∃ t, exec (.storeAck id) u = .next t ∧ u.Completes t id done ∧ t.mem = s.mem ∧
        ∀ n, (t.thread a.who).reg n = (s.thread a.who).reg n) ∧
      (∀ op n rd cmp, a.op = .amo op n rd cmp → q.len = n → n = 4 ∨ n = 8 → rd ≠ 0 →
        rd < 24 ∨ a.by_.inHandler = (s.thread a.who).handler.isSome →
        ∃ t, exec (.atomicReturn id) u = .next t ∧ u.Completes t id done ∧ t.mem = s.mem ∧
          u.Takes t done rd (if n = 8 ∨ op = 1 then BitVec.ofNat 64 (ofBytes q.old)
            else (BitVec.ofNat 32 (ofBytes q.old)).signExtend 64)))

/-- R195, R196, R198, R199, R304, R70: a matrix command at the head of its queue starts when its checks pass, and with
a fault leaves with the cause and no accumulator changed; one that acts for no engine leaves. A K-step first sends for
the sectors it reads from other cores and waits for them. Once the cycles of each of its engines are over it writes
the accumulator that MG names of each of them and no other, as the step gives it, and gathers their flags, which reach
ARSTAT when the last K-step ends the command; a fault ends it with the accumulators as the K-step before left them.
Global memory is unchanged throughout, but for a fault's record; where that can be neither written nor held the
command stays (R359). R200 to R203, R232 to R235, R377, R379, R380: the Mordant command at the head of its queue.
QRES.z zeroes the range of each of its engines, up to one whose record is not valid, which is its fault; QRES without
Z has written its record when it issued and leaves (the model's reading, log 38). QREL zeroes its record of each of
its engines and no other, but one that a QRES behind it has written again (log 38). QCVT quantises one block at a time
(the model's choice, log 32): the block scale that R201 chooses, a free value where R201 divides by zero (log 49),
then the elements, each the source value over its scales, rounded. QPRUNE writes the regions of every engine's tile,
and then in one final step every header and every counter of its blocks. With its last block or step a command leaves
the queue and its flags reach ARSTAT. A fault of its start or of a block is its issuer's. -/
def Obligations.UnitsRun : Prop :=
  (∀ (s : State) (d k : Nat), d < 24 → k < 48 →
     let q := s.core d k
     (∀ m r, q.matq = m :: r → m.running = false → (∀ x ∈ r, x.id ≠ m.id) →
       (m.engines = [] → exec (.matrixCommandStart d k) s = .next (s.setCore d k ({ q with matq := r }.moved 2 s.time))) ∧
       (m.engines ≠ [] → s.startFault m = none → exec (.matrixCommandStart d k) s = .next (s.setCore d k
         { q with matq := { m with running := true, step := 0, stepAt := s.time } :: r })) ∧
       (∀ f, m.engines ≠ [] → s.startFault m = some f → s.hears m.by_.ctx = true →
         ∃ t, exec (.matrixCommandStart d k) s = .next t ∧
           (t.core d k).matq = r ∧ s.Raises t m.by_ f.code 3 f.val f.eng 1 ∧
           (t.ctx m.by_.ctx).eng = (s.ctx m.by_.ctx).eng) ∧
       (∀ f, m.engines ≠ [] → s.startFault m = some f → (s.ctx m.by_.ctx).st = .draining → s.partN m.by_.ctx.die < 4 →
         64 ≤ (s.part (s.partN m.by_.ctx.die)).holding.length → exec (.matrixCommandStart d k) s = .next s)) ∧
     (∀ m r, q.matq = m :: r → m.running = true → (∀ x ∈ r, x.id ≠ m.id) → m.by_.ctx.ok = true →
       let c := m.by_.ctx
       let sectors := s.stepPieces m m.step
       let wait := s.onWay c.die (clusterOf (s.homeOf c).core) m.id
       (m.sent = false → sectors ≠ [] → ∃ t, exec (.matrixKstepDone d k) s = .next t ∧
         (t.core d k).matq = { m with sent := true } :: r ∧ { t with cores := s.cores, clusters := s.clusters } = s ∧
         ∀ w ∈ windowTransfers m.id (.gang c.die c.core c.ctx false) (corePos c.core) false s.time sectors,
           ∃ v ∈ (t.indigo c.die (clusterOf c.core)).waiting, v.reads = w.reads ∧ v.src = w.src ∧
             w.dsts &&& ~~~v.dsts = 0 ∧ (v.id = m.id ∨ ∃ p ∈ v.also, p.2 = m.id)) ∧
       (m.sent = true → wait = true → exec (.matrixKstepDone d k) s = .next s) ∧
       ((m.sent = true ∧ wait = false) ∨ (m.sent = false ∧ sectors = []) →
         (∀ l, s.stepAll m m.step m.engines = .ok l → m.stepAt ≤ s.time → (∀ o ∈ l, m.stepAt + 80 * o.cycles ≤ s.time) →
           let flags := l.foldl (fun f o => f ||| o.flags) m.flags
           l.map StepOut.eng = m.engines ∧
           ∃ t, exec (.matrixKstepDone d k) s = .next t ∧ t.mem = s.mem ∧ t.accs = s.accs ∧
             (∀ o ∈ l, ((t.ctx c).engine o.eng).accum (mgAcc m.mg) = o.acc) ∧
             (∀ e n, e ∉ m.engines ∨ n ≠ mgAcc m.mg → ((t.ctx c).engine e).accum n = ((s.ctx c).engine e).accum n) ∧
             (∀ e, { (t.ctx c).engine e with acc := [] } = { (s.ctx c).engine e with acc := [] }) ∧
             (m.count ≤ m.step + 1 → (t.core d k).matq = r ∧ (t.ctx c).arstat = (s.ctx c).arstat ||| flags) ∧
             (m.step + 1 < m.count → (t.ctx c).arstat = (s.ctx c).arstat ∧ (t.core d k).matq
               = { m with step := m.step + 1, stepAt := s.time, flags := flags, sent := false } :: r)) ∧
         (∀ l o, s.stepAll m m.step m.engines = .ok l → o ∈ l → s.time < m.stepAt + 80 * o.cycles →
           exec (.matrixKstepDone d k) s = .next s) ∧
         (∀ f stale, s.stepAll m m.step m.engines = .error (f, stale) → s.hears c = true →
           ∃ t, exec (.matrixKstepDone d k) s = .next t ∧ (t.core d k).matq = r ∧ s.Raises t m.by_ f.code 3 f.val f.eng 1 ∧
             (t.ctx c).eng = (s.ctx c).eng ∧
             (t.ctx c).arstat = (s.ctx c).arstat ||| (m.flags ||| if stale then fSTALEZ else 0))))) ∧
  (∀ (s : State) (d k : Nat) (m : MordantCmd) (r : List MordantCmd), d < 24 → k < 48 →
     (s.core d k).morq = m :: r → (∀ x ∈ r, x.id ≠ m.id) → m.by_.ctx.ok = true →
     let c := m.by_.ctx
     let x := s.ctx c
     let own := s.core c.die c.core
     let run := exec (.mordantCommandRun d k) s
     let raises (f : UnitFault) : Prop := ∃ t, run = .next t ∧ (t.core d k).morq = r ∧ s.Raises t m.by_ f.code 3 f.val f.eng 2
     let after (t : State) (last : Bool) (next : MordantCmd) (flags : Flags) : Prop :=
       (t.core d k).morq = (if last then r else next :: r) ∧
       (t.ctx c).arstat = (if last then x.arstat ||| flags else x.arstat)
     let osb (t : State) (e a : Nat) : Byte := blocksByte (t.core c.die c.core).osb 32 e a
     let spad (t : State) (e a : Nat) : Byte := blocksByte (t.core c.die c.core).spad 128 e a
     (m.engines = [] → ∃ t, run = .next t ∧ (t.core d k).morq = r ∧ t.mem = s.mem ∧ t.ctxs = s.ctxs) ∧
     (m.engines ≠ [] → m.op = .qrel → ∃ t, run = .next t ∧ (t.core d k).morq = r ∧ t.mem = s.mem ∧
       ∀ e n, ((t.ctx c).engine e).record n
         = if e ∈ m.engines ∧ n = m.ob ∧ ¬ (∃ y ∈ r, ∃ z, m.id < y.id ∧ y.by_.ctx = c ∧ y.ob = m.ob ∧ bitOf y.am e = true ∧ y.op = .qres z)
           then 0 else (x.engine e).record n) ∧
     (m.engines ≠ [] → m.op = .qres false → ∃ t, run = .next t ∧ (t.core d k).morq = r ∧ t.mem = s.mem ∧
       t.ctxs = s.ctxs) ∧
     (m.engines ≠ [] → m.op = .qres true → (∀ e ∈ m.engines, obValid (m.record e) x.osbSize = true) →
       ∃ t, run = .next t ∧ (t.core d k).morq = r ∧ t.mem = s.mem ∧ t.ctxs = s.ctxs ∧
         (∀ e ∈ m.engines, ∀ i, i < obLen (m.record e) * 64 → osb t e (x.osbBase + obBase (m.record e) * 64 + i) = 0) ∧
         (∀ e a, e < 16 → a < 65536 → x.osbBase + x.osbSize ≤ 65536 → (∀ g ∈ m.engines, g < 16) →
           (e ∉ m.engines ∨ a < x.osbBase + obBase (m.record e) * 64 ∨
             x.osbBase + (obBase (m.record e) + obLen (m.record e)) * 64 ≤ a) → osb t e a = osb s e a)) ∧
     (∀ e, m.op = .qres true → m.engines.find? (fun e => !obValid (m.record e) x.osbSize) = some e → s.hears c = true →
       raises ⟨0x65, BitVec.ofNat 64 m.ob, e⟩) ∧
     (∀ src, m.engines ≠ [] → m.op = .qcvt src →
       (∀ f, m.phase = 0 → s.qcvtStart m src = some f → s.hears c = true → raises f) ∧
       ((m.phase = 0 → s.qcvtStart m src = none) →
         ((s.qcvtItems m)[m.phase]? = none → ∃ t, run = .next t ∧ t.mem = s.mem ∧ after t true m m.flags) ∧
         (∀ e b, (s.qcvtItems m)[m.phase]? = some (e, b) → obValid (m.record e) x.osbSize = false → s.hears c = true →
           raises ⟨0x65, BitVec.ofNat 64 m.ob, e⟩) ∧
         (∀ e b code va u, (s.qcvtItems m)[m.phase]? = some (e, b) → obValid (m.record e) x.osbSize = true →
           s.qcvtBytes d k m src e b = (.fail code va, u) → s.hears c = true → raises ⟨code, BitVec.ofNat 64 va, e⟩) ∧
         (∀ e b l u, (s.qcvtItems m)[m.phase]? = some (e, b) → obValid (m.record e) x.osbSize = true →
           qcvtCount m.sb ≤ obCount (m.record e) → s.qcvtBytes d k m src e b = (.bytes l, u) →
           let o := m.record e
           let f := qcvtFmt m.sb
           let n := m.blockLen e b
           let val (i : Nat) : Val := valOf f (ofBytes l >>> (i * fmtWidth f) % 2 ^ fmtWidth f)
           let sizes := (List.range n).filterMap (fun i => match val i with
             | .fin _ p q => some (Val.fin false p q)
             | _ => none)
           let amax := sizes.foldl (fun a v => if a.cmp v < 0 then v else a) (Val.ofInt 0)
           let top := ((Val.ofInt (maxq (obEfmt o))).mul (valOf 1 (obTscale o))).1
           let chosen : Nat × Flags := if amax.isZero then (0x3F80, 0)
             else if top.isZero then (Config.freeChoice s.freeCtr % 65536, 0)
             else let y := roundTo 2 (amax.div top).1 3 true
                  (y.1, (amax.div top).2 ||| y.2)
           let choose := obBsen o && !qcvtKeep m.sb
           ∃ t, run = .next t ∧ t.mem = u.mem ∧
             let v := t.rangeNum c e o
             let j (i : Nat) : Nat := b * obBlock o + i
             let out (i : Nat) : Nat × Flags :=
               let z := rangeQuotient o v (j i) (val i)
               let y := roundTo (obEfmt o) z.1 (qcvtRm m.sb) (qcvtSat m.sb)
               (y.1, z.2 ||| y.2)
             let flags := m.flags ||| (List.range n).foldl (fun g i => g ||| (out i).2) (if choose then chosen.2 else 0)
             (choose = true → v >>> (8 * (obSoff o + 2 * b)) % 65536 = chosen.1) ∧
             (∀ i, i < n → rangeElem (obEfmt o) v (j i)
               = some (if obEfmt o = 11 then (out i).1 else (out i).1 % 2 ^ fmtWidth (obEfmt o))) ∧
             after t (decide ((s.qcvtItems m).length ≤ m.phase + 1)) { m with phase := m.phase + 1, flags := flags } flags))) ∧
     (m.engines ≠ [] → m.op = .qprune → (pruneOf m.sb).ok = true → (∀ e ∈ m.engines, e < 16) → m.engines.Nodup → x.spadBase + x.spadSize ≤ 262144 →
       (own.writtenAt = s.cycle → ∀ w ∈ own.written, w.rank ≤ mordantRank) →
       let p := pruneOf m.sb
       let at_ := x.spadBase + p.dst
       let vals (e : Nat) := s.qpruneVals m e (p.rows * p.cols)
       let region (e : Nat) := p.regions (fun i => (at' (vals e) i (Val.ofInt 0, 0)).1)
       (∀ f, m.phase = 0 → s.qpruneStart m = some f → s.hears c = true → raises f) ∧
       (m.phase = 0 → s.qpruneStart m = none → ∃ t fl, run = .next t ∧ t.mem = s.mem ∧ t.ctxs = s.ctxs ∧
         (t.core d k).morq = { m with phase := 1, gens := m.engines.map (fun e => (e, s.tileGens m e)), flags := fl } :: r ∧
         fl = m.engines.foldl (fun g e => g ||| (vals e).foldl (fun a y => a ||| y.2) (region e).2) 0 ∧
         (t.core c.die c.core).gen = own.gen ∧
         ∀ e a, e < 16 → a < 262144 → spad t e a
           = if e ∈ m.engines ∧ at_ + 16 ≤ a ∧ a < at_ + 16 + (region e).1.length then at' (region e).1 (a - at_ - 16) 0
             else spad s e a) ∧
       (m.phase ≠ 0 → p.dst + (p.header false 0).length ≤ x.spadSize → ∃ t, run = .next t ∧ t.mem = s.mem ∧ after t true m m.flags ∧
         ∀ e ∈ m.engines,
           let now := s.tileGens m e
           let h := p.header false 0
           let gen := BitVec.ofNat 32 (1 + now.foldl (fun n b => max n b.2.toNat) 0)
           let stored := (List.range (h.groups * p.n)).map (fun i =>
             ofBytes (s.progSpad c e (p.dst + 16) h.valueBytes) >>> (i * fmtWidth p.fmt) % 2 ^ fmtWidth p.fmt)
           let zero := stored.all (fun b => (valOf p.fmt b).isZero) && decide (now = ngetD m.gens e [])
           (∀ a, a < 262144 → spad t e a
             = if at_ ≤ a ∧ a < at_ + 16 then at' (p.header zero gen.toNat).bytes (a - at_) 0 else spad s e a) ∧
           ∀ b ∈ blocksOf at_ h.length, ngetD (t.core c.die c.core).gen (e * 128 + b) 0 = gen)))

/-- R142, R204 to R206, R268, R304: a copy at the head of the stream queue starts when its checks pass, free of its
queue entry (the model's choice, log 103), and with a fault ends with its cause. Its moves are made in the order of
their bytes, engine by engine: each place of memory, of a scratchpad or of an OSB range takes the byte its source
holds then, some of them at a time or all that remain (the model's choice, log 32); where engines' copies meet, a byte
of memory takes the highest engine's last. Bytes for another core are sent there on the Indigo plane, and written
where they land. With all made and landed it lowers wc2 by one, leaves the stream engine and posts its continuation,
if it has one, after the others; while a page it needs is not held it stays. R207: a ring whose turn it is ends when
no transfer remains, else serves one slot and gives the turn to the next ring. -/
def Obligations.StreamEngineRuns : Prop :=
  ∀ (s : State) (d k : Nat), d < 24 → k < 48 →
    let q := s.core d k
    let wc2 (x : State) (m : CopyCmd) : Nat := ngetD (x.ctx m.by_.ctx).wc 2 0
    (∀ m r, q.strq = .copy m :: r →
      (m.engines = [] ∨ s.copyFault m = none → exec (.copyStart d k) s = .next (s.setCore d k
        ({ q with strq := r, copies := q.copies ++ [{ m with started := true }] }.moved 4 s.time))) ∧
      (∀ f, m.engines ≠ [] → s.copyFault m = some f → s.hears m.by_.ctx = true → ∃ t, exec (.copyStart d k) s = .next t ∧
        wc2 t m = wc2 s m - 1 ∧ s.Raises t m.by_ f.code 3 f.val f.eng 3 ∧
        (t.ctx m.by_.ctx).cpyy = (s.ctx m.by_.ctx).cpyy - (if m.cont.isSome then 1 else 0) ∧
        (t.ctx m.by_.ctx).posts = (s.ctx m.by_.ctx).posts ∧
        ∀ i ∈ (t.core d k).strq, ∀ c, i = .copy c → c.id ≠ m.id)) ∧
    (∀ m, q.copies = [m] → m.by_.ctx.ok = true → s.copyOnWay m = false →
      let c := m.by_.ctx
      let x := s.ctx c
      let core := s.core c.die c.core
      let inside (p : CopyPlace) : Prop := match p with
        | .mem _ => True
        | .spad r e off => r = c ∧ e < 16 ∧ off < x.spadSize
        | .osb r e off => r = c ∧ e < 16 ∧ off < x.osbSize
      let fits (all : List Move) : Prop := ∀ v ∈ all, inside v.dst ∧ ∀ p, v.src = .place p → inside p
      let stands (l : List EngineMoves) : List Move := (l.flatMap (·.moves)).filter (fun v => match v.dst with
        | .mem pa => !(nget m.wrote pa).any (fun e => decide (v.eng < e))
        | _ => true)
      let moved (u t : State) (all : List Move) : Prop := ∀ p, inside p → t.placeByte p
        = all.foldl (fun (g : CopyPlace → Byte) v y => if y = v.dst then (match v.src with
            | .place z => g z
            | .held b _ => b) else g y) u.placeByte p
      let ends (u t : State) : Prop := (t.core d k).copies = [] ∧ wc2 t m = wc2 u m - 1 ∧
        (t.ctx c).main = (u.ctx c).main
      x.spadBase + x.spadSize ≤ 262144 → x.osbBase + x.osbSize ≤ 65536 →
      (core.writtenAt = s.cycle → ∀ w ∈ core.written, w.rank ≤ streamRank) → s.mem.wf →
      (∀ l u, s.allMoves d k m = (l, u) →
        (tlKind m.src ≠ 2 → (∃ y ∈ l, y.waits = true) → exec (.copyComplete d k ⟨m.id, none⟩) s = .next u) ∧
        ((∀ y ∈ l, y.waits = false) → tlKind m.dst ≠ 2 → mayRace l = false → fits (stands l) →
          (l.findSome? (·.fault) = none → ∃ t, exec (.copyComplete d k ⟨m.id, none⟩) s = .next t ∧
            moved u t (stands l) ∧ ends u t ∧ (t.ctx c).posts = (u.ctx c).posts ++ m.cont.toList) ∧
          (∀ f, l.findSome? (·.fault) = some f → s.hears c = true → ∃ t, exec (.copyComplete d k ⟨m.id, none⟩) s = .next t ∧
            ends u t ∧ (t.ctx c).posts = (u.ctx c).posts ∧
            (t.ctx c).inbox = [(m.by_.spare && (s.ctx c).spare.isSome,
              { m.by_.cause s f.code 3 f.val f.eng with unit := 3, recorded := alwaysRecord f.code })] ∧
            (alwaysRecord f.code = false → moved u t (stands l)))) ∧
        ((∀ y ∈ l, y.waits = false ∧ y.fault = none) → mayRace l = true →
          ∀ pre v post a, stands l = pre ++ v :: post → v.dst = .mem a →
            (∀ w ∈ stands l, w.dst = v.dst → w.eng ≤ v.eng) → (∀ w ∈ post, w.dst = v.dst → w.eng ≠ v.eng) →
            (∀ w ∈ stands l, ∀ p, v.src = .place p → w.dst ≠ p) →
            ∃ t, exec (.copyComplete d k ⟨m.id, none⟩) s = .next t ∧ t.mem.byte a = (u.srcByte v.src).1) ∧
        ((∀ y ∈ l, y.waits = false ∧ y.fault = none) → tlKind m.dst = 2 → mayRace l = false → u.copyOnWay m = false →
          let sent := (u.carried (stands l)).filter (fun y => u.remote m y.2.1)
          let pieces : List WindowPiece := sent.filterMap (fun y => match y.2.1 with
            | .spad r e off => some { pos := corePos r.core, eng := y.1, place := (r.core, e, (s.ctx r).spadBase + off), bytes := [y.2.2] }
            | _ => none)
          let out := (windowTransfers m.id (.gang c.die c.core c.ctx false) (corePos c.core) true s.time pieces).map
            (fun t => { t with copy := true })
          ∃ t, exec (.copyComplete d k ⟨m.id, none⟩) s = .next t ∧
            (t.indigo c.die (clusterOf c.core)).waiting = (s.indigo c.die (clusterOf c.core)).waiting ++ out ∧
            (∀ n, n < 48 → n ≠ c.core → (t.core c.die n).spad = (u.core c.die n).spad) ∧
            (out ≠ [] → (t.core d k).copies = [m.afterAll l]) ∧ (out = [] → ends u t))) ∧
      (∀ e n y u, e ∈ m.engines → s.nextMoves d k m e (m.whole e n) = (y, u) → y.waits = false → tlKind m.dst ≠ 2 →
        fits (stands [y]) → ∃ t, exec (.copyComplete d k ⟨m.id, some { eng := e, n := n, read := false }⟩) s = .next t ∧
          (t.core d k).copies = [m.after e y.moves] ∧ moved u t (stands [y]) ∧ t.ctxs = u.ctxs) ∧
      (∀ e n l u, e ∈ m.engines → s.readAhead d k m e n = (l, u) →
        ∃ t, exec (.copyComplete d k ⟨m.id, some { eng := e, n := n, read := true }⟩) s = .next t ∧
          (t.core d k).copies = [{ m with ahead := nset m.ahead e (ngetD m.ahead e [] ++ l) }] ∧ t.mem = u.mem ∧
          t.ctxs = u.ctxs)) ∧
    (∀ cl v core e a l n, cl < 12 → core < 48 → e < 16 → l ≠ [] → a + l.length ≤ 262144 →
      (s.indigo d cl).flying = [v] → v.landsAt = some n → n ≤ s.cycle → v.copy = true → v.writes = [(core, e, a, l)] →
      ((s.core d core).writtenAt = s.cycle → ∀ w ∈ (s.core d core).written, w.rank ≤ streamRank) →
      ∃ t, exec (.indigoDelivery d cl) s = .next t ∧ (t.indigo d cl).flying = [] ∧ t.mem = s.mem ∧ t.ctxs = s.ctxs ∧
        ∀ g y, g < 16 → y < 262144 → blocksByte (t.core d core).spad 128 g y
          = if g = e ∧ a ≤ y ∧ y < a + l.length then at' l (y - a) 0 else blocksByte (s.core d core).spad 128 g y) ∧
    (∀ r l u, q.rings = [r] → s.unitRead d (.ring d k r.id) r.desc.toNat 64 = (.bytes l, u) →
      (ringNrem l = 0 → ∃ t, exec (.ringSlotServe d k r.id) s = .next t ∧ (t.core d k).rings = [] ∧ t.mem = u.mem ∧
        t.ctxs = u.ctxs) ∧
      (∀ slot, ringNrem l ≠ 0 → (ringOf l).slot r.prod = some slot →
        let v := u.serveSlot d k r l slot
        (u.slotBehind d k r l = true → exec (.ringSlotServe d k r.id) s = .next u) ∧
        (u.slotBehind d k r l = false → exec (.ringSlotServe d k r.id) s
          = .next (s.unitStep (v.setCore d k ({ v.core d k with ringNext := 1 }.moved 5 v.time))))) ∧
      (ringNrem l ≠ 0 → (ringOf l).slot r.prod = none → exec (.ringSlotServe d k r.id) s = .next u))

/-- R208, R209, R211, R377, R381: the request at the head of a die's queue whose record can be read starts on the
lowest idle Ochre core at the record's first word, which stands in its PC unchanged (the model's reading, log 43),
with s1 to s7 its next words, s8 its engine, s9 its issuer's core and the rest zero; one whose captured OSB record is
not valid stops there with 0x65 (log 43). A thread that has ended with nothing outstanding frees its core and lowers
wc3 by one then (log 43); without exactly one .last its issuer has the cause 0x85, one that stopped at its start 0x65,
one that left its allocation or range 0x87, and one that stopped with a code of its own 0x86, for which it stays while
the fault record can be neither written nor held (R359). -/
def Obligations.GatherThreads : Prop :=
  ∀ (s u : State) (d i : Nat) (g : GatherReq) (r : List GatherReq), d < 24 → i < 16 →
    (∀ m, (s.die d).gq = g :: r → (s.ochre d i).req = none → (∀ j, j < i → (s.ochre d j).req ≠ none) →
      (∀ v, g.ob = some v → obValid v (s.ctx g.by_.ctx).osbSize = true) →
      s.lookupThread d (s.partN d) g.addr.toNat .read = (.hit m, u) →
      u.unitHeld (.ochre d i) .read m g.addr.toNat 64 = false → u.readFault (s.partN d) m.pa = none →
      ∃ t, exec (.gatherRequestStart d) s = .next t ∧ (t.die d).gq = r ∧ t.mem = u.mem ∧ t.ctxs = u.ctxs ∧
        let o := t.ochre d i
        o.req = some g ∧ o.done = false ∧ o.fail = none ∧ o.store = [] ∧ o.cam = [] ∧ o.handed = 0 ∧ o.lasts = 0 ∧
        o.thread.pc = BitVec.ofNat 64 (u.mem.num m.pa 8) ∧
        (∀ n, 1 ≤ n → n ≤ 7 → o.thread.reg n = BitVec.ofNat 64 (u.mem.num (m.pa + 8 * n) 8)) ∧
        o.thread.reg 8 = BitVec.ofNat 64 g.eng ∧ o.thread.reg 9 = BitVec.ofNat 64 (s.homeOf g.by_.ctx).core ∧
        (∀ n, 10 ≤ n → o.thread.reg n = 0)) ∧
    (∀ v, (s.die d).gq = g :: r → (s.ochre d i).req = none → (∀ j, j < i → (s.ochre d j).req ≠ none) →
      g.ob = some v → obValid v (s.ctx g.by_.ctx).osbSize = false →
      ∃ t, exec (.gatherRequestStart d) s = .next t ∧ (t.die d).gq = r ∧ t.mem = s.mem ∧ t.ctxs = s.ctxs ∧
        let o := t.ochre d i
        o.req = some g ∧ o.done = true ∧ o.fail = some 0x65) ∧
    (let o := s.ochre d i
      let wc3 (x : State) : Nat := ngetD (x.ctx g.by_.ctx).wc 3 0
      o.req = some g → o.done = true → (∀ a ∈ s.accs, a.who ≠ .ochre d i) → s.hears g.by_.ctx = true →
      ∃ t, exec (.ochreThreadEnd d i) s = .next t ∧ t.ochre d i = .zero ∧ wc3 t = wc3 s - 1 ∧
        (o.fail = none → o.lasts = 1 → (t.ctx g.by_.ctx).inbox = [] ∧ t.mem = s.mem) ∧
        (o.fail = some 0x65 → s.Raises t g.by_ 0x65 3 (BitVec.ofNat 64 g.obN) g.eng 4) ∧
        (o.fail = some 0x87 → s.Raises t g.by_ 0x87 3 (BitVec.ofNat 64 (max (g.dst.toNat + o.handed) (s.deliverySize g))) g.eng 4) ∧
        (o.fail = none → o.lasts ≠ 1 → s.Raises t g.by_ 0x85 3 g.addr g.eng 4) ∧
        (∀ c, o.fail = some c → c ≠ 0x87 → c ≠ 0x65 →
          s.Raises t g.by_ 0x86 3 (BitVec.ofNat 64 (o.thread.pc.toNat % 2 ^ 57 / 4 * 256 + c.toNat)) g.eng 4)) ∧
    (∀ c, (s.ochre d i).req = some g → (s.ochre d i).done = true → (∀ a ∈ s.accs, a.who ≠ .ochre d i) →
      (s.ochre d i).fail = some c → c ≠ 0x87 → c ≠ 0x65 → g.by_.ctx.ok = true → (s.ctx g.by_.ctx).st ≠ .empty →
      s.partN g.by_.ctx.die < 4 → 64 ≤ (s.part (s.partN g.by_.ctx.die)).holding.length →
      exec (.ochreThreadEnd d i) s = .next s)

/-- R252, R383 to R386, R249: a walk that succeeds fills the L2 TLB and frees its entry; one that fails for a unit
leaves the entry faulted with the cause, and a record with FLAGS.ANSWER, the place it came from, the address and the
entry's use; one not among the die's 16 first does not end. RETRY starts a new walk of the entry, FAIL gives a copy
engine's request its cause and frees the entry; an answer that names no faulted entry and an ignored write set STALE.
A miss that waited takes the lowest free entry. A TLBINVC write with GO clears DONE and drops the translations it
covers at once (the model's reading, log 67); DONE is set once no write to host memory waits for its flush, no access
uses a covered translation and no collective has still to write through one. -/
def Obligations.WalksAndAnswers : Prop :=
  ∀ (s : State) (d k p : Nat) (e : MergeEntry), d < 24 → k < 256 →
    let die := s.die d
    let unit (w : MergeWaiter) : Prop := w.helper = false ∧ match w.who with
      | .stream _ _ _ | .mordant _ _ _ | .ring _ _ _ => True
      | _ => False
    let r := s.walk e.part (e.region * 65536)
    let u := s.carryAll (s.walkRouters e.part (e.region * 65536))
    let token (v : BitVec 32) : Prop := s.bar0Open p false = true ∧ s.answered p v = some (d, k, e) ∧ e.faulted = true
    let o (w : MergeWaiter) : Origin := s.origin d w.va w.who
    let passes (i : Instr) : Prop := ∀ tr, r = .ok tr →
      (∀ w ∈ e.list, unit w ∧ walkCode r w.kind = none) →
      exec i s = .next (u.setDie d { u.die d with merge := nerase die.merge k, l2tlb := l2Fill die.l2tlb tr })
    let fails (i : Instr) : Prop := ∀ w c, e.list = [w] → unit w → walkCode r w.kind = some c → w.kind ≠ .fetch →
      ∃ f,
        exec i s = .next ((u.setDie d { u.die d with merge := nset die.merge k ({ e with faulted := true, code := c } : MergeEntry) }).emit e.part f) ∧
        f.code = c ∧ f.kind = 3 ∧
        f.flags = 1 + (if (o w).half then 4 else 0) + (if (o w).inHandler then 8 else 0) ∧ f.pc = (o w).pc ∧
        f.seq = BitVec.ofNat 32 (o w).seq ∧ f.prog = BitVec.ofNat 32 (o w).prog ∧ f.issued = (o w).issued ∧ f.val = BitVec.ofNat 64 w.va ∧ f.val2.setWidth 16 = e.use ∧
        (f.val2 >>> 16).setWidth 16 = BitVec.ofNat 16 (d * 256 + k)
    (nget die.merge k = some e → s.walks d e = true → passes (.walkComplete d k) ∧ fails (.walkComplete d k)) ∧
    (nget die.merge k = some e → s.walks d e = false → exec (.walkComplete d k) s = .next s) ∧
    (∀ v, token v → (∀ w ∈ e.list, unit w) →
      exec (.faultAnswerRetry p v) s = .next ({ s with nextId := s.nextId + 1 }.setDie d { die with
        merge := nset die.merge k ({ e with faulted := false, started := s.nextId } : MergeEntry) })) ∧
    (∀ v, token v →
      ∀ x y id c w, e.list = [w] → w.who = .stream x y id → walkCode r w.kind = some c →
        let u := s.setDie d { die with merge := nerase die.merge k }
        exec (.faultAnswerFail p v) s = .next (u.setCore x y { u.core x y with copies := (u.core x y).copies.map (fun m =>
          if m.id = id then { m with bad := nset m.bad (e.region * 2 + (if w.kind == .write then 1 else 0)) c } else m) })) ∧
    (∀ v, s.bar0Open p false = true → s.answered p v = none →
      exec (.faultAnswerRetry p v) s = .next (s.setPart p { s.part p with fanStale := true }) ∧
      exec (.faultAnswerFail p v) s = .next (s.setPart p { s.part p with fanStale := true })) ∧
    (∀ v : Word, s.bar0Open p false = true → v.extractLsb' 1 31 ≠ 0 →
      exec (.fansIgnoredWrite p v) s = .next (s.setPart p { s.part p with fanStale := true })) ∧
    (∀ w rest region, region = w.va / 65536 → die.misses = (p, region, w) :: rest → nget die.merge k = none →
      (∀ n, n < k → nget die.merge n ≠ none) → tlbFind die.l2tlb w.va = none → w.va < 2 ^ 57 →
      die.merge.find? (fun x => x.2.region == w.va / 65536 && x.2.part == p) = none →
      ∃ t, exec (.mergeEntryRetry d) s = .next t ∧ t.nextId = s.nextId + 1 ∧ (∀ n, n ≠ d → t.die n = s.die n) ∧
        { t with dies := s.dies, nextId := s.nextId } = s ∧
        t.die d = { die with
          misses := rest, uses := nset die.uses k (ngetD die.uses k 0 + 1)
          merge := nset die.merge k { region := w.va / 65536, part := p, list := [w], faulted := false, code := 0,
                                      use := ngetD die.uses k 0 + 1, started := s.nextId } }) ∧
    (∀ v : Word, s.bar0Open p false = true → v.extractLsb' 8 2 = 1 → v.getLsbD 10 = true → (s.part p).tlbDone = true →
      ∃ t, exec (.tlbInvalidate p v) s = .next t ∧ (t.part p).tlbDone = false ∧ t.mem = s.mem ∧ t.ctxs = s.ctxs ∧
        (∀ n, n < 24 → (t.die n).l2tlb = if bitOf (s.part p).dies n then [] else (s.die n).l2tlb) ∧
        (∀ n c, n < 24 → c < 48 → (t.core n c).tlb = if bitOf (s.part p).dies n then [] else (s.core n c).tlb)) ∧
    (p < 4 → (s.part p).tlbDone = false →
      let uses : Prop := (∃ a ∈ s.accs, s.partN a.who.die = p ∧ (s.part p).usesCovered a = true) ∨ s.collCovered p = true
      ((s.part p).flush = [] → ¬ uses →
        ∃ t, exec (.tlbInvalidateDone p) s = .next t ∧ (t.part p).tlbDone = true ∧ t.mem = s.mem ∧ t.ctxs = s.ctxs) ∧
      ((s.part p).flush ≠ [] ∨ uses → exec (.tlbInvalidateDone p) s = .next s))

/-- R38, R40, R57, R290, R39, R55: of a core's two candidates the one of higher priority issues, of equal ones that of
the older stamp, and its streak grows while the other starves; a lone candidate issues; no other context of the core
gets the sequencer in that cycle, and their streaks, runs of bundles in a row, end (the model's reading, log 118). A
bank that has held its slot for 4,096 cycles gives way to the RESIDENT other, effective in the next cycle. A STARTING
program whose tables and first line of code are read begins at its kernel entry, of which PC keeps bits 56 to 2 (the
model's reading, log 66); one whose first line cannot be fetched leaves STARTING with that cause on its way to its
first bundle (R361). A DRAINING context with nothing left becomes EMPTY and its launch counts one more. -/
def Obligations.ContextsScheduled : Prop :=
  ∀ (s : State) (d k : Nat), d < 24 → k < 48 →
    let at_ (x : Nat) : CtxRef := ⟨d, k, x⟩
    let part (x : Nat) : PartRef := .gang d k x false
    let wins (c : Context) : Context := { c with streak := c.streak + 1, starve := 0 }
    let loses (c : Context) : Context := { c with streak := 0, starve := c.starve + 1 }
    let calm : Prop := s.gateOpen d = true ∧ s.used d k 0 = false ∧ s.used d k 1 = false ∧
      ∀ x, x < 8 → (s.ctx (at_ x)).st ≠ .issuing
    let fresh (x : Nat) : Prop := s.candidate (part x) = true ∧ (s.ctx (at_ x)).starve < 16 ∧ (s.ctx (at_ x)).streak < 8
    let picks (w : Nat) (t : State) : Prop := s.grant (part w) = some t ∧ t.ctx (at_ w) = wins (s.ctx (at_ w)) ∧
      exec (.bundleIssue (part w)) s = .next (t.issuePart (part w)) ∧
      ((s.core d k).spareOwner = none → exec (.issueSelect d k) s = .next (t.issuePart (part w))) ∧
      (∀ x, x < 8 → t.grant (part x) = none ∧ (x ≠ w → (t.ctx (at_ x)).streak = 0))
    (∀ w, w < 8 → calm → fresh w → (∀ x, x < 8 → x ≠ w → s.canIssue (part x) = false) → ∃ t, picks w t) ∧
    (∀ a b, a < b → b < 8 → calm → fresh a → fresh b → (∀ x, x < 8 → x ≠ a → x ≠ b → s.canIssue (part x) = false) →
      let x := s.ctx (at_ a)
      let y := s.ctx (at_ b)
      ((x.prog.prio < y.prog.prio ∨ (x.prog.prio = y.prog.prio ∧ y.stamp < x.stamp)) →
        ∃ t, picks b t ∧ t.ctx (at_ a) = loses x) ∧
      ((y.prog.prio < x.prog.prio ∨ (x.prog.prio = y.prog.prio ∧ x.stamp ≤ y.stamp)) →
        ∃ t, picks a t ∧ t.ctx (at_ b) = loses y)) ∧
    (∀ slot b, slot < 4 → b < 2 → ngetD (s.core d k).issuing slot 0 = b →
      let cur := at_ (2 * slot + b)
      let other := at_ (2 * slot + (1 - b))
      (s.ctx cur).st = .ready ∨ (s.ctx cur).st = .issuing → (s.ctx other).st = .resident →
      ngetD (s.core d k).heldFrom slot s.cycle + 4096 ≤ s.cycle →
      ∃ t, exec (.bankSwitchQuantum d k slot) s = .next t ∧ ngetD (t.core d k).issuing slot 0 = 1 - b ∧
        t.ctx cur = { s.ctx cur with st := .resident } ∧ t.ctx other = { s.ctx other with st := .ready, stamp := s.cycle + 1 } ∧
        ngetD (t.core d k).switchedAt slot 0 = s.cycle + 1 ∧ (∀ sp, t.canIssue (.gang d k (2 * slot + (1 - b)) sp) = false) ∧
        { t with ctxs := s.ctxs, cores := s.cores } = s) ∧
    (∀ x l a b m w u v, x < 8 → let c := at_ x
      let pc : Word := BitVec.ofNat 64 (ofBytes a) &&& 0x01FFFFFFFFFFFFFC
      (s.ctx c).st = .starting → (s.ctx c).save = .none → s.launchOf (s.ctx c).prog = some l → (s.ctx c).inbox = [] →
      s.startReads c l = (.bytes a, .bytes b, .bytes m, u) →
      (∀ code va, u.startCode c pc = (.fail code va, v) → ∃ t q, exec (.startingComplete d k x) s = .next t ∧ t.mem = v.mem ∧
        ((t.ctx c).st = .ready ∨ (t.ctx c).st = .resident) ∧ (t.ctx c).inbox = [(false, q)] ∧ q.code = code ∧
        q.kind = fetchKind code ∧ q.val = BitVec.ofNat 64 va ∧ q.pc = pc ∧ (t.ctx c).main = { (v.ctx c).main with pc := pc }) ∧
      (u.startCode c pc = (.bytes w, v) → ∃ t, exec (.startingComplete d k x) s = .next t ∧ t.mem = v.mem ∧
        ((t.ctx c).st = .ready ∨ (t.ctx c).st = .resident) ∧ (t.ctx c).main = { (v.ctx c).main with pc := pc } ∧
        (t.core d k).icache = (v.core d k).icache ∧
        (∃ i ∈ (v.core d k).icache, i.image = (s.ctx c).lrec.image ∧ i.va = pc.toNat / 64 * 64) ∧
        nget (t.core d k).cwtTag x = some (s.ctx c).lrec.image)) ∧
    (∀ x l, x < 8 → let c := at_ x
      let p := (s.ctx c).prog
      (s.ctx c).st = .draining → s.drained c = true → s.retiring p.part (fun r => r.before c) = false →
      (s.part p.part).launches = [l] → l.seq = p.seq →
      l.retired + 1 < l.lrec.nprog → l.next = l.lrec.nprog → l.back = [] → l.saved = [] →
      ∃ t, exec (.contextRetire d k x) s = .next t ∧ t.mem = s.mem ∧
        t.ctx c = { Context.zero with budgetWin := (s.ctx c).budgetWin, budgetUsed := (s.ctx c).budgetUsed } ∧
        (t.part p.part).launches = [{ l with retired := l.retired + 1 }])

/-- R292 to R294: PREEMPT with GO asks the context it names to be saved and clears DONE; with nothing there to save
DONE stays set; while DONE is 0 it has no effect. A context past its bound is held for a hard save in the lowest free
slot, unless a trap or a bundle of the cycle comes first (the model's reading, log 100). A candidate that fits nowhere
has the context chosen for it asked. R296, R299: a held context with nothing left is written to its slot, its latches
as the model lays them out (its reading, log 63), and becomes EMPTY; a saved one placed again takes its registers,
address and mask from its record. -/
def Obligations.SavesAndResumes : Prop :=
  ∀ (s : State) (d k x : Nat), d < 24 → k < 48 → x < 8 →
    let c : CtxRef := ⟨d, k, x⟩
    let p := s.partN d
    let runs : Prop := (s.ctx c).st = .ready ∨ (s.ctx c).st = .resident ∨ (s.ctx c).st = .issuing ∨ (s.ctx c).st = .blocked
    (∀ v : Word, v.getLsbD 63 = true → v.getLsbD 14 = false → v.extractLsb' 9 5 = BitVec.ofNat 5 d →
      v.extractLsb' 3 6 = BitVec.ofNat 6 k → v.extractLsb' 0 3 = BitVec.ofNat 3 x → s.bar0Open p false = true →
      ((s.part p).preDone = false → exec (.preempt p v) s = .next s) ∧
      (bitOf (s.part p).dies d = true → (s.part p).preDone = true → runs → (s.ctx c).want = none →
        ∃ t, exec (.preempt p v) s = .next t ∧ (t.ctx c).want = some .driver ∧ (t.part p).preDone = false ∧
          (t.part p).preNamed = [c] ∧ (t.part p).preDie = BitVec.ofNat 5 d ∧ (t.part p).preCore = BitVec.ofNat 6 k ∧
          (t.part p).preCtx = BitVec.ofNat 3 x ∧ t.mem = s.mem) ∧
      (bitOf (s.part p).dies d = true → (s.part p).preDone = true → (s.ctx c).st = .empty →
        ∃ t, exec (.preempt p v) s = .next t ∧ (t.part p).preDone = true ∧ t.ctxs = s.ctxs ∧ t.mem = s.mem)) ∧
    (∀ n, s.maySave c = true → s.freeSlot p = some n → (s.ctx c).prebound.toNat ≤ s.safeCount c →
      s.hardWaits c = false →
      exec (.hardPreemptBound d k x) s = .next (s.setCtx c { s.ctx c with save := .holding true n })) ∧
    (∀ n, s.maySave c = true → s.freeSlot p = some n → s.safeCount c < (s.ctx c).prebound.toNat ∨ s.hardWaits c = true →
      exec (.hardPreemptBound d k x) s = .next s) ∧
    (∀ l r, s.scheduling p = true → (s.freeSlot p).isSome = true → s.candidates p = l :: r → s.fit p l = none →
      (s.without ((s.ctxsOf p).filter (fun q => (s.ctx q).leaving))).fit p l = none →
      s.chooseVictims p l s.idleVictims (fun _ => (0, 0)) = some [c] → (s.ctx c).st = .blocked → (s.ctx c).want = none →
      ∃ t, exec (.preemptCandidate p) s = .next t ∧ (t.ctx c).want = some .waiting ∧ t.mem = s.mem) ∧
    (∀ hard n m l u, runs → (s.ctx c).save = .holding hard n → s.groupOf c = [c] → s.savable c = true →
      s.mapRecords [(c, hard, n)] = (.ok [(m, l)], u) →
      ∃ t w, exec (.saveRecordWrite d k x) s = .next t ∧ (t.ctx c).st = .empty ∧
        (t.part (u.ctx c).prog.part).savedProgs = (u.part (u.ctx c).prog.part).savedProgs ++ [w] ∧ w.slot = n ∧
        w.prog = (u.ctx c).prog ∧ w.lrec = (u.ctx c).lrec ∧ w.hard = hard ∧ w.home = c ∧
        ∀ tag, t.mem = (u.unitWrite m l tag).mem) ∧
    (∀ n v r tab u, (s.ctx c).st = .starting → (s.ctx c).save = .resuming n → s.groupOf c = [c] →
      s.placeSettled (savedPlace (s.ctx c).prog.part n) = true → s.resumeAll [(c, n)] = (.ok [(c, n, v, r, tab)], u) →
      let old := (u.ctx (savedPlace (u.ctx c).prog.part n)).main
      recNum r 16 4 % 2 = 0 → old.causes = [] →
      ∃ t, exec (.resume d k x) s = .next t ∧ t.mem = u.mem ∧
        (∀ i, 1 ≤ i → i < 32 → (t.ctx c).main.reg i = recWord r (0x1000 + 8 * i)) ∧
        (t.ctx c).main.pc = recWord r 32 &&& 0x01FFFFFFFFFFFFFC ∧ (t.ctx c).main.am = BitVec.ofNat 16 (recNum r 24 2) ∧
        (t.ctx c).lm = BitVec.ofNat 16 (recNum r 22 2) ∧ (t.ctx c).main.bundles = recWord r 48 ∧
        (t.ctx c).main.trapval = recWord r 104 ∧ (t.ctx c).arstat = BitVec.ofNat 7 (recNum r 72 8) ∧
        (t.ctx c).spare = none ∧ (t.ctx c).spadBase = (u.ctx c).spadBase)

/-- R346, R350, R353, R354, R388: a cause on its way reaches its part in a cycle after its own (the model's reading,
log 33). One that can be taken enters the handler, with its cause and address in the trap registers and the next
bundle in TRAPPC; of a blocked context it is held, and the seventeenth ends the program, as does one that the running
handler's own operation raised; one of kind 4 ends it, and so does an error in a context's arrays, which the event
brings (the model's reading, log 112). R28, R359, R320: the oldest held record goes to the fault queue's next slot and
WP advances, while no cause that arose before it is still to end its program (the model's reading of the order, log
90); one that would fall into another partition's memory is written nowhere; vector 0 is signalled for records
written, at most once in 4 µs and while MSI-X is enabled. -/
def Obligations.CausesAndRecords : Prop :=
  ∀ (s : State) (d k x p : Nat) (q : Cause), d < 24 → k < 48 → x < 8 →
    let c : CtxRef := ⟨d, k, x⟩
    let m := (s.ctx c).main
    let comes : Prop := (s.ctx c).inbox = [(false, q)] ∧ q.cycle s.readyAt < s.cycle
    let unwritten : Prop := (alwaysRecord q.code && !q.recorded) = false
    let live : Prop := (s.ctx c).st ≠ .starting ∧ (s.ctx c).st ≠ .empty ∧ (s.ctx c).st ≠ .draining
    (live → comes → q.kind ≠ 4 → m.takes = true → m.due = false → m.arrived = false → (s.ctx c).st ≠ .blocked →
      (s.ctx c).save = .none → m.causes = [] → (s.ctx c).handlerAddr ≠ 0 →
      ∃ t h, exec (.causeArrive d k x none) s = .next t ∧ (t.ctx c).main.handler = some h ∧ h.code = q.code ∧
        (t.ctx c).main.pc = (s.ctx c).handlerAddr ∧ (t.ctx c).main.trappc = m.pc &&& 0x01FFFFFFFFFFFFFC ∧
        (t.ctx c).main.trapval = q.val ∧ (t.ctx c).main.trapcause.extractLsb' 0 8 = q.code ∧
        (t.ctx c).main.trapcause.extractLsb' 16 3 = q.kind ∧ h.am = m.am ∧ h.pend = m.pend ∧ (t.ctx c).inbox = [] ∧
        (∀ r, r < 24 → (t.ctx c).main.reg r = m.reg r) ∧ (unwritten → t.mem = s.mem)) ∧
    (live → comes → q.kind ≠ 4 → m.handler = none → (s.ctx c).st = .blocked → m.causes.length < 16 →
      ∃ t, exec (.causeArrive d k x none) s = .next t ∧
        (t.ctx c).main = { m with causes := m.causes ++ [{ q with recorded := q.recorded || alwaysRecord q.code }] } ∧
        (t.ctx c).inbox = [] ∧ (t.ctx c).st = .blocked ∧ (unwritten → t.mem = s.mem)) ∧
    (live → comes → q.kind ≠ 4 → m.handler = none → (s.ctx c).st = .blocked → m.causes.length = 16 →
      ∃ t, exec (.causeArrive d k x none) s = .next t ∧ (t.ctx c).st = .draining ∧ (t.ctx c).lm = 0) ∧
    (live → comes → ∀ h, q.kind ≠ 4 → m.handler = some h → q.inHandler = true → q.gen = m.hgen →
      ∃ t, exec (.causeArrive d k x none) s = .next t ∧ (t.ctx c).st = .draining ∧ (t.ctx c).lm = 0) ∧
    (live → (s.ctx c).inbox = [(false, q)] → s.cycle ≤ q.cycle s.readyAt → exec (.causeArrive d k x none) s = .next s) ∧
    (live → comes → q.kind = 4 →
      ∃ t, exec (.causeArrive d k x none) s = .next t ∧ (t.ctx c).st = .draining ∧ (t.ctx c).lm = 0) ∧
    (∀ e : ArrayError, live → 1 ≤ e.array.toNat → e.array.toNat ≤ 6 →
      ∃ t, exec (.causeArrive d k x (some e)) s = .next t ∧ (t.ctx c).st = .draining ∧ (t.ctx c).lm = 0) ∧
    (∀ r l, (s.part p).canRecord = true → (s.part p).holding = r :: l → (s.part p).behind = [] → s.mem.wf →
      s.endsBefore p r = false →
      let pa := s.fold ((s.part p).fqBase.toNat * 64 + 64 * ((s.part p).fqWp.toNat % 2 ^ (s.part p).fqLog2.toNat))
      ∃ t, exec (.faultRecordDrain p) s = .next t ∧ (s.ownReach p pa 64 = true → t.mem.read pa 64 = r.bytes) ∧
        (s.ownReach p pa 64 = false → t.mem = s.mem) ∧ (∀ a, a < pa ∨ pa + 64 ≤ a → t.mem.byte a = s.mem.byte a) ∧
        t.part p = { s.part p with holding := l, fqWp := (s.part p).fqWp + 1, msixOwed := true } ∧ t.ctxs = s.ctxs) ∧
    (∀ r l, (s.part p).canRecord = true → (s.part p).holding = r :: l → s.endsBefore p r = true →
      exec (.faultRecordDrain p) s = .next s) ∧
    ((s.part p).msixOwed = true → (∀ n, (s.part p).msixLast = some n → n + 4 * tickUs ≤ s.time) →
      ∃ t, exec (.faultMsix p) s = .next t ∧ (t.part p).msixOwed = false ∧ (t.part p).msixLast = some s.time ∧
        (((s.part p).vector 0).mask = false → (s.part p).pcieUp = true → (s.part p).d3 = false →
          (s.part p).msixOn = true →
          (t.part p).signalled = (s.part p).signalled ++ [0]) ∧ t.mem = s.mem ∧ t.ctxs = s.ctxs)

/-- R276, R279, R288: the distributor reads the next record of an enabled queue that holds one; one that passes the
checks becomes a launch with the next SEQ, one that fails check n gets the record 0xA0 with its address and n, and the
failure value where COMPL is aligned; RP advances either way. The records and entries are read through the TLB of the
first running die (the model's choice, log 30), an image entry that cannot be read fails check 3 (the model's reading,
log 41), and the image's code is kept from the acceptance on where no store to memory has kept it since its entry
became valid (the model's reading, log 94). R282 to R285, R37, R333: the first candidate is placed where it fits: its
context is STARTING with the registers, mask and allocation R37 gives, its bank the slot's issuing one where the other
is EMPTY. A launch whose next group has waited 100 µs, counted from when it became the next (the model's reading, log
65), starves. -/
def Obligations.LaunchesAndPlacing : Prop :=
  ∀ (s : State) (p q : Nat),
    let x := (s.part p).queue q
    let va := x.base.toNat * 64 + 64 * (x.rp.toNat % 2 ^ x.log2.toNat)
    (∀ l u m v, p < 4 → q < 64 → (s.part p).formed = true → (s.part p).resetting = false → x.en = true → x.rp ≠ x.wp →
      s.fetchFor (s.firstDie p) p va 64 (.queue p q) = (.bytes l, u) → (recordOf l).image < (u.part p).imgCnt.toNat →
      u.imageFor (s.firstDie p) p (recordOf l).image (.queue p q) = (.bytes m, v) →
      let y : LaunchQueue := { (v.part p).queue q with rp := ((v.part p).queue q).rp + 1 }
      let w := v.setPart p { v.part p with lq := nset (v.part p).lq q y }
      (w.launchCheck p l (recordOf l) (some (imageWords m)) = none → ∃ t k, exec (.launchQueueTake p q) s = .next t ∧
        t.part p = { w.part p with seq := (w.part p).seq + 1, launches := (w.part p).launches ++ [k] } ∧
        k.seq = (w.part p).seq.toNat ∧ k.lrec = recordOf l ∧ k.queue = q ∧ k.prio = q / 16 ∧ k.next = 0 ∧ k.retired = 0 ∧
        (∃ c ∈ t.code, c.part = p ∧ c.image = (recordOf l).image) ∧ { t with parts := w.parts, code := w.code } = w) ∧
      (∀ c, w.launchCheck p l (recordOf l) (some (imageWords m)) = some c →
        ∃ f, f.code = 0xA0 ∧ f.val = BitVec.ofNat 64 va ∧ f.val2 = BitVec.ofNat 64 c ∧
          let r := w.emit p f
          exec (.launchQueueTake p q) s = .next (if (recordOf l).compl.toNat % 8 = 0 then
            (r.owe p (r.firstDie p) 0 (recordOf l).compl (BitVec.allOnes 64) (some q)).settleCompl p else r))) ∧
    (∀ c u, p < 4 → q < 64 → (s.part p).formed = true → (s.part p).resetting = false → x.en = true → x.rp ≠ x.wp →
      s.fetchFor (s.firstDie p) p va 64 (.queue p q) = (.fail c, u) →
      ∃ f, f.code = 0xA0 ∧ f.val = BitVec.ofNat 64 va ∧ f.val2 = 9 ∧ exec (.launchQueueTake p q) s = .next ((u.setPart p
        { u.part p with lq := nset (u.part p).lq q { (u.part p).queue q with rp := ((u.part p).queue q).rp + 1 } }).emit p f)) ∧
    ((x.en = false ∨ x.rp = x.wp) → exec (.launchQueueTake p q) s = .next s) ∧
    (∀ c r g die u sp, s.scheduling p = true → s.retiring p (fun _ => true) = false → s.candidates p = c :: r →
      s.fit p c = some (die, u, [(g.mem, sp)]) → c.progs = [(g, none)] → sp.at_.ok = true →
      ∃ t, exec (.placeGroup p) s = .next t ∧ t.mem = s.mem ∧ t.accs = s.accs ∧
        ((s.ctx { sp.at_ with ctx := 2 * (sp.at_.ctx / 2) + (1 - sp.at_.ctx % 2) }).st = .empty →
          ngetD (t.core sp.at_.die sp.at_.core).issuing (sp.at_.ctx / 2) 0 = sp.at_.ctx % 2) ∧
        let y := t.ctx sp.at_
        y.st = .starting ∧ y.prog = g ∧ y.lrec = c.lrec ∧ y.spadBase = sp.spad ∧ y.osbBase = sp.osb ∧
        y.lm = BitVec.ofNat 16 (2 ^ c.lrec.lanes - 1) ∧ y.main.am = BitVec.ofNat 16 (2 ^ c.lrec.lanes - 1) ∧
        y.main.reg 1 = c.lrec.arg ∧ y.main.reg 2 = BitVec.ofNat 64 g.prog ∧ y.main.reg 3 = BitVec.ofNat 64 g.group ∧
        y.main.reg 4 = BitVec.ofNat 64 g.mem ∧ y.main.reg 5 = BitVec.ofNat 64 sp.at_.die ∧
        y.main.reg 6 = BitVec.ofNat 64 sp.at_.core ∧ (∀ i, 7 ≤ i → y.main.reg i = 0) ∧ y.main.loops = [] ∧
        y.main.stack = [] ∧ y.arstat = 0 ∧ (∀ e, e < 16 → (y.engine e).scalar 0 = BitVec.ofNat 64 e)) ∧
    (s.candidates p = [] → exec (.placeGroup p) s = .next s) ∧
    (∀ l, (s.part p).ordered.find? Launch.waits = some l →
      exec (.frontEndStarvation p) s = .next (if l.waitFrom + 100 * tickUs ≤ s.time then
        s.setPart p { s.part p with launches := (s.part p).launches.map (fun k =>
          if k.seq = l.seq then { l with starved := true } else k) } else s)) ∧
    ((s.part p).ordered.find? Launch.waits = none → exec (.frontEndStarvation p) s = .next s)

/-- R219, R280, R281: a NODEPUT whose record has been read is accepted once the bin's next slot is free: the record
stands in the slot, the NODEPUT completes, and the record opens a batch or joins the open one; while the slot is taken
it waits. The timer makes a batch due, which is launched unless 64 batches of the bin are unretired or one whose entry
it would take is (the model's reading, log 99); before it nothing happens. -/
def Obligations.LaunchesAndBins : Prop :=
  ∀ (s : State) (d n : Nat), d < 24 →
    let b := s.bin d n
    let p := s.partN d
    let next := (b.next + 1) % b.cap
    (∀ a l u, s.accs = [a] → a.op = .nodeput d n → a.isOpen = false → a.failure = none → a.index = none →
      s.partOk a.who = true → b.coal ≠ 0 → b.cap ≠ 0 → b.taken b.next = false →
      s.unitMap d (.access a.id) .write (sectors (b.buf.toNat + 64 + 8 * b.rsize * b.next) (8 * b.rsize)) = (.at_ l, u) →
      u.unitFault d false l = none →
      let stored (t : State) : Prop := u.Completes t a.id a ∧
        t.mem = (u.unitWrite l (a.pieces.flatMap (·.data)) (u.tagOf a.by_)).mem
      (b.batches.find? (fun z => !z.closed) = none → 2 ≤ b.coal →
        ∃ t y, exec (.binAccept d n) s = .next t ∧ stored t ∧
          t.bin d n = { b with batches := b.batches ++ [y], next := next, nextBatch := b.nextBatch + 1 } ∧
          y.first = b.next ∧ y.count = 1 ∧ y.num = b.nextBatch ∧ y.openedAt = s.time ∧ y.buf = b.buf ∧ y.closed = false) ∧
      (∀ y, b.batches.find? (fun z => !z.closed) = some y → y.count + 1 < b.coal →
        ∃ t, exec (.binAccept d n) s = .next t ∧ stored t ∧
          t.bin d n = { b with next := next, batches := b.batches.map (fun z =>
            if z.id = y.id then { z with count := z.count + 1 } else z) })) ∧
    (∀ a, s.accs = [a] → b.taken b.next = true → exec (.binAccept d n) s = .next s) ∧
    (∀ y, b.batches.find? (fun z => !z.closed) = some y → b.timer ≠ 0 →
      let done := b.batches.map (fun z => if z.id = y.id then { z with closed := true } else z)
      let v : State := { s.setBin d n { b with batches := done } with nextId := s.nextId + 1 }
      let due := v.setPart p { v.part p with parked := (v.part p).parked ++ [.batch s.nextId d n y.id] }
      (y.openedAt + b.timer * tickUs ≤ s.time → (s.part p).parked = [] →
        exec (.binTimerExpire d n) s = .next (due.launchBatch p s.nextId d n y.id) ∧
        (64 ≤ b.flying → exec (.binTimerExpire d n) s = .next due)) ∧
      (s.time < y.openedAt + b.timer * tickUs → exec (.binTimerExpire d n) s = .next s)) ∧
    ((b.timer = 0 ∨ ∀ y ∈ b.batches, y.closed = true) → exec (.binTimerExpire d n) s = .next s)

/-- R212, R213, R268, R322, R379, R380: a COLL, an instance of its own until its descriptor is read (the model's
choice, log 39), joins the open instance of its group and its member's count, marking it where they disagree, or opens
it; one whose descriptor breaks its rules fails with 0x89 (the model's reading of groups and counts, log 40). A member
of another module joins where a port of the partition reaches that module (the model's reading, log 82). An instance
whose members have all joined reads its sources, forms with the combined results, and each member's completion writes
its DST and lowers its wc2 by one; one that was marked fails every member with 0x88. -/
def Obligations.CollectivesRun : Prop :=
  ∀ (s : State) (i : CollInst) (m : CollMember),
    let c := m.by_.ctx
    let wc2 (x : State) : Nat := ngetD (x.ctx c).wc 2 0
    let die := s.collDie m
    let with_ (e : CollDesc) : CollMember := { m with src := BitVec.ofNat 64 e.src, dst := BitVec.ofNat 64 e.dst }
    (∀ l u j, s.colls = [i, j] → j.id ≠ i.id → i.nmemb = 0 → i.members = [m] → j.nmemb ≠ 0 → j.part = i.part →
      j.formed = false → j.members ≠ [] → (∀ x ∈ j.members, x.mem ≠ m.mem) →
      j.members.length + j.outside.length + 1 < j.nmemb → s.collBehind m m.desc.toNat 64 = false →
      s.unitRead die (.coll i.id m.id) m.desc.toNat 64 = (.bytes l, u) →
      let e := collDescOf l
      e.ok m.mem = true → j.group = e.group → j.k = s.joinCount i.part e.group m.mem →
      ∃ t, exec (.collInstanceForm ⟨i.id, none⟩) s = .next t ∧ t.mem = u.mem ∧ t.ctxs = u.ctxs ∧
        t.colls = [{ j with members := j.members ++ [with_ e], movedAt := s.time
                            mismatch := j.mismatch || !(j.count = e.count && j.nmemb = e.nmemb && j.op = e.op &&
                              j.fmt = e.fmt && j.root = e.root) }] ∧
        t.joinCount i.part e.group m.mem = s.joinCount i.part e.group m.mem + 1) ∧
    (s.colls = [i] → i.nmemb ≠ 0 → i.formed = false → i.members = [m] → m.written = false → i.full = true →
      i.mismatch = true → s.collBroken i = false → s.hears c = true →
      ∃ t, exec (.collInstanceForm ⟨i.id, none⟩) s = .next t ∧ t.colls = [] ∧ wc2 t = wc2 s - 1 ∧
        s.Raises t m.by_ 0x88 3 m.desc 0 5) ∧
    (∀ l u, s.colls = [i] → i.nmemb = 0 → i.members = [m] → i.outside = [] → i.formed = false → m.written = false →
      s.unitRead die (.coll i.id m.id) m.desc.toNat 64 = (.bytes l, u) →
      let e := collDescOf l
      (e.ok m.mem = true → 2 ≤ e.nmemb → ∃ t, exec (.collInstanceForm ⟨i.id, none⟩) s = .next t ∧ t.mem = u.mem ∧
        t.ctxs = u.ctxs ∧
        t.colls = [{ i with group := e.group, k := s.joinCount i.part e.group m.mem, count := e.count, nmemb := e.nmemb
                            op := e.op, fmt := e.fmt, root := e.root, members := [with_ e], movedAt := s.time }] ∧
        t.joinCount i.part e.group m.mem = s.joinCount i.part e.group m.mem + 1) ∧
      (e.ok m.mem = false → s.hears c = true → ∃ t, exec (.collInstanceForm ⟨i.id, none⟩) s = .next t ∧ t.colls = [] ∧
        wc2 t = wc2 s - 1 ∧ s.Raises t m.by_ 0x89 3 m.desc 0 5 ∧ t.mem = s.mem)) ∧
    (∀ (o : CollOutside) (l : List Byte), s.colls = [i] → i.nmemb ≠ 0 → i.formed = false → i.members ≠ [] →
      s.collBroken i = false →
      i.members.length + i.outside.length + 1 < i.nmemb →
      o.mem < i.nmemb →
      (∀ x ∈ i.members, x.mem ≠ o.mem) → (∀ x ∈ i.outside, x.mem ≠ o.mem) → o.bytes = some l →
      l.length = (if i.op = 3 ∧ o.mem ≠ i.root then 0 else i.srcLen) →
      exec (.collInstanceForm ⟨i.id, some (.outside [o])⟩) s
        = .next { s with colls := [{ i with
            outside := i.outside ++ (if s.moduleUp i.part o.module then [o] else []), movedAt := s.time }] }) ∧
    (∀ n l u, s.colls = [i] → s.collBroken i = false → i.nmemb ≠ 0 → i.formed = false → i.mismatch = false → i.full = true →
      i.members.find? (fun x => x.mem = m.mem) = some m → s.collRead i m n = (.bytes l, u) →
      ∃ t, exec (.collInstanceForm ⟨i.id, some (.read m.mem n)⟩) s = .next t ∧
        t.colls = [{ i with ahead := nset i.ahead m.mem (ngetD i.ahead m.mem [] ++ l), movedAt := s.time }] ∧ { t with colls := u.colls } = u) ∧
    (∀ ls u, s.colls = [i] → s.collBroken i = false → i.nmemb ≠ 0 → i.formed = false → i.full = true → i.mismatch = false → i.members ≠ [] →
      (∀ o ∈ i.outside, o.agrees = true ∧ o.bytes.isSome = true) → s.collSources i i.ordered = (.ok ls, u) →
      ∃ t, exec (.collInstanceForm ⟨i.id, none⟩) s = .next t ∧ { t with colls := u.colls } = u ∧
        t.colls = [{ i with
          formed := true, results := i.compute (i.sources ls), movedAt := s.time
          members := i.members.map (fun m => { m with places := ((ls.find? (fun p => p.1.id = m.id)).map (·.2.2)).getD [] }) }]) ∧
    (s.colls = [i] → s.collBroken i = false → i.nmemb ≠ 0 → i.formed = true → i.members = [m] → m.written = false → c.ok = true →
      s.unitFault die false m.places = none →
      ∃ t, exec (.collComplete i.id m.mem) s = .next t ∧ t.colls = [] ∧ wc2 t = wc2 s - 1 ∧
        ∀ tag, t.mem = (s.unitWrite m.places (ngetD i.results (if i.op = 5 then m.mem else 0) []) tag).mem)

/-- R309 to R316, R397 to R400, R408, R409: a controller takes its next request and turns the lowest rested group of
the other direction, charging its context; a turn drains, stands dead for 24 ns and then carries the other way,
resting 2 µs; a turn that fails, and 16 replays or more than 1,000 CRC errors, retire the group (replays and errors
are what the event brings, the model's choice, log 37; their records are those of log 36, the model's reading).
Budgets renew with the window. At the end of a 10 µs window, counted as R314's and once for each (the model's reading,
log 113), AUTO turns the lowest rested group (the model's choice, log 125) toward a direction busy 90% while the other
is below 50%, and is entered after 50 µs without a TURN. A retired port, after a millisecond, fails the store that
waits on it with 0x4C; a request that has left for host memory stands there from its event on (the model's choice, log
115), and silent for 50 ms it fails with 0x4B. -/
def Obligations.LinksTurn : Prop :=
  ∀ (s : State) (k g : Nat),
    let l := s.link k
    let only (t : State) (m : Link) : Prop := t.link k = m ∧ ∀ j, j ≠ k → t.link j = s.link j
    (∀ r, k ≤ 37 → l.boundary = false → l.turning = none → l.serving = none → l.nextRequest k = some r →
      s.spent r.ctx = false → r.ctx.ok = true →
      let d := upFrom k r.die
      let have_ := (l.carrying d).length
      let from_ := if have_ < r.target then !d else d
      have_ ≠ r.target → (l.carrying from_).find? (l.rested s.time) = some g → l.mayGive from_ = true →
      ∃ t, exec (.turnService k) s = .next t ∧ only t { l with
          serving := some r, queue := l.queue.erase r, asked := [], lastHigh := r.die = (linkEnds k).2
          turning := some { group := g, up := !from_, phase := .drain } } ∧
        t.charged r.ctx = s.charged r.ctx + 1 ∧ (∀ c, c.ok = true → c ≠ r.ctx → t.ctx c = s.ctx c) ∧
        { t with links := s.links, ctxs := s.ctxs } = s) ∧
    (∀ u, l.turning = some { group := g, up := u, phase := .drain } →
      exec (.groupDrainEnd k false) s = .next (s.setLink k { l with
        turning := some { group := g, up := u, phase := .dead (s.time + 4032) } }) ∧
      (l.serving = none → ∃ t, exec (.groupDrainEnd k true) s = .next t ∧ (t.link k).turning = none ∧
        (t.link k).retired = l.retired ||| (1#16 <<< g) ∧ ∀ j, j ≠ k → t.link j = s.link j)) ∧
    (∀ u at_, l.turning = some { group := g, up := u, phase := .dead at_ } → l.serving = none → at_ ≤ s.time → g < 16 →
      (∃ t, exec (.deadTimeEnd k false) s = .next t ∧ (t.link k).turning = none ∧ (t.link k).dwell = nset l.dwell g (at_ + 2 * tickUs) ∧
        (∀ h, h < 16 → (t.link k).up.getLsbD h = if h = g then u else l.up.getLsbD h) ∧
        (t.link k).retired = l.retired ∧ { t with links := s.links } = s) ∧
      (∃ t, exec (.deadTimeEnd k true) s = .next t ∧ (t.link k).turning = none ∧
        (t.link k).retired = l.retired ||| (1#16 <<< g))) ∧
    (∀ at_, nget l.dwell g = some at_ → at_ ≤ s.time → l.serving = none →
      exec (.dwellEnd k g) s = .next (s.setLink k { l with dwell := nerase l.dwell g })) ∧
    (∃ t, exec .turnBudgetWindow s = .next t ∧ (∀ c, (t.ctx c).budgetUsed
        = if (s.ctx c).budgetWin < s.window then 0 else (s.ctx c).budgetUsed) ∧ { t with ctxs := s.ctxs } = s) ∧
    (∀ (up : Bool) busy idle, k ≤ 33 → l.boundary = false → l.auto = true → l.turning = none → 90 ≤ busy → idle < 50 →
      (l.carrying (!up)).find? (l.rested s.time) = some g → l.mayGive (!up) = true →
      s.cycle % 21000 = 0 → s.window ≠ l.autoWin →
      ∃ t, exec (.autoWindowEnd k (if up then busy else idle) (if up then idle else busy)) s = .next t ∧
        only t { l with autoWin := s.window, turning := some { group := g, up := up, phase := .drain } } ∧
        { t with links := s.links } = s) ∧
    (∀ busy idle, s.cycle % 21000 ≠ 0 ∨ s.window = l.autoWin → exec (.autoWindowEnd k busy idle) s = .next s) ∧
    (k ≤ 37 → l.boundary = false → l.queue = [] → l.lastTurn + 50 * tickUs ≤ s.time →
      exec (.autoEntry k) s = .next (s.setLink k { l with auto := true })) ∧
    (∀ replays crc, k ≤ 37 → g < 16 → l.serving = none → l.retired.getLsbD g = false →
      ∃ t, exec (.linkReplay k false g replays crc) s = .next t ∧ (∀ j, j ≠ k → t.link j = s.link j) ∧
        (t.link k).crc = nset l.crc g crc ∧
        (t.link k).retired = if 16 ≤ replays ∨ 1000 < crc then l.retired ||| (1#16 <<< g) else l.retired) ∧
    (∀ replays crc, k < 32 → s.portRetired k = none →
      (∃ t, exec (.linkReplay k true g replays crc) s = .next t ∧
        t.portRetired k = if 16 ≤ replays then some s.time else none) ∧
      ∃ t, exec (.airufoldPortRetire k) s = .next t ∧ t.portRetired k = some s.time ∧
        ∀ j, j ≠ k → t.portRetired j = s.portRetired j) ∧
    (∀ a p, s.accs = [a] → a.pieces = [p] → a.op = .store → p.helper = false → p.isOpen = true → a.index = none →
      a.dropped = false →
      a.who.ctx? = some a.by_.ctx → s.hears a.by_.ctx = true →
      let fails (i : Instr) (code : BitVec 8) : Prop := ∃ t, exec i s = .next t ∧ t.accs = [] ∧
        t.wcOf a.who a.wc = s.wcOf a.who a.wc - 1 ∧ s.Raises t a.by_ code 3 (BitVec.ofNat 64 p.va) p.eng 0
      (∀ at_, s.portRetired k = some at_ → at_ + 1000 * tickUs ≤ s.time → a.since < at_ →
        if s.onPort k a p then fails (.airufoldRouteGiveUp k a.id) 0x4C
        else exec (.airufoldRouteGiveUp k a.id) s = .next s) ∧
      (∀ pa, p.pa = some pa → paSpace pa = 2 → s.mayPerform a p = true → a.id < 2 ^ 64 →
        (nget s.hostSent a.id = none → exec (.hostCompletionTimeout a.id) s
          = .next { s with hostSent := nset s.hostSent a.id (s.time, 1) }) ∧
        (∀ at_, nget s.hostSent a.id = some (at_, 1) →
          (s.time < at_ + 50000 * tickUs → exec (.hostCompletionTimeout a.id) s = .next s) ∧
          (at_ + 50000 * tickUs ≤ s.time → fails (.hostCompletionTimeout a.id) 0x4B))))

/-- R29, R258, R273, R274, R317, R319, R321, R327, R408: a number without a function takes no request and trains no
link. A posted write waits at the I/O die and is then written, or discarded where it reaches no die of the partition,
behind a request forwarded to its die before it; a non-posted request waits for the posted writes before it, then is
performed and answered, aborted where it reaches none (what it asks for is one number, and its lines go in one step:
the model's choices, logs 69 and 88); a configuration request, a write and the enabling of MSI-X among them, is
answered whatever the stage; in D3hot no memory request is (presumed, log 109). The flush read releases the host
writes that wait (the model's reading, log 70). A link that goes down loses what was inbound; one that is trained lets
accesses go on. Another module's read is answered. -/
def Obligations.HostRequestsServed : Prop :=
  ∀ (s : State) (p : Nat), p < 4 →
    let k := s.part p
    let on : Prop := s.presents p = true ∧ k.d3 = false
    (s.presents p = false → exec (.pcieLinkTrained p) s = .next s ∧ (∀ w, exec (.hostPostedWrite p w) s = .next s) ∧
      ∀ r, exec (.hostNonpostedRequest p r) s = .next s) ∧
    (∀ w, on → k.pcieUp = true → w.bytes.length ≤ 512 →
      exec (.hostPostedWrite p (some w)) s = .next (s.setPart p { k with posted := k.posted ++ [w] })) ∧
    (∀ w rest, on → k.pcieUp = true → k.posted = w :: rest → k.asks = [] → w.bytes ≠ [] → w.off % 64 + w.bytes.length ≤ 64 →
      s.mem.wf → (∀ q ∈ k.bar2, paDie q.addr ≠ paDie w.off) → ∃ t, exec (.hostPostedWrite p none) s = .next t ∧ t.part p = { k with posted := rest } ∧
        (∀ x, t.mem.byte x = if s.reaches p w.off = true ∧ w.off ≤ x ∧ x < w.off + w.bytes.length
          then (w.bytes[x - w.off]?).getD 0 else s.mem.byte x) ∧ t.ctxs = s.ctxs ∧
        ((∀ a ∈ s.accs, ∀ q ∈ a.pieces, q.took = none) → t.accs = s.accs)) ∧
    (∀ w rest q, on → k.pcieUp = true → k.posted = w :: rest → q ∈ k.bar2 → paDie q.addr = paDie w.off →
      exec (.hostPostedWrite p none) s = .next s) ∧
    (∀ r, s.presents p = true → k.pcieUp = true → r.fromHost = true →
      (k.posted ≠ [] → exec (.hostNonpostedRequest p r) s
        = .next (s.setPart p { k with asks := k.asks ++ [(k.posted.length, r)] })) ∧
      (∀ reg, k.posted = [] → r = .config reg → exec (.hostNonpostedRequest p r) s = .next (s.setPart p { k with
        replies := k.replies ++ [(some (toBytes 4 (Config.configWord p reg (nget k.cfg reg)).toNat), false)] })) ∧
      (∀ reg v, k.posted = [] → r = .configWrite reg v → exec (.hostNonpostedRequest p r) s
        = .next (s.setPart p { k with cfg := nset k.cfg reg v, replies := k.replies ++ [(some [], false)] })) ∧
      (∀ b, k.posted = [] → r = .msix b → (∀ v, (k.vector v).pending = false) → exec (.hostNonpostedRequest p r) s
        = .next (s.setPart p { k with msixOn := b, replies := k.replies ++ [(some [], false)] })) ∧
      (∀ d, k.posted = [] → r = .power d → (∀ v, (k.vector v).pending = false) → exec (.hostNonpostedRequest p r) s
        = .next (s.setPart p { k with d3 := d, replies := k.replies ++ [(some [], false)] })) ∧
      (k.posted = [] → (∀ reg, r ≠ .config reg) → (∀ d, r ≠ .power d) → (∀ reg v, r ≠ .configWrite reg v) →
        (∀ b, r ≠ .msix b) →
        (k.d3 = true → exec (.hostNonpostedRequest p r) s
          = .next (s.setPart p { k with replies := k.replies ++ [(none, false)] })) ∧
        (k.d3 = false → r.addr < 2 ^ 42 → exec (.hostNonpostedRequest p r) s
          = .next (s.setPart p { k with bar2 := k.bar2 ++ [r] })) ∧
        (∀ a n, k.d3 = false → r = .read a n → 2 ^ 42 ≤ a → exec (.hostNonpostedRequest p r) s
          = .next (s.setPart p { k with replies := k.replies ++ [(some (s.bar0Read p (a - 2 ^ 42) n), false)] })))) ∧
    (∀ r, k.bar2 = [r] →
      let answers (x : Option (List Byte) × Bool) (q : State → Prop) : Prop := ∃ t, exec (.bar2Access p 0) s = .next t ∧
        (t.part p).bar2 = [] ∧ (t.part p).replies = k.replies ++ [x] ∧ t.ctxs = s.ctxs ∧ q t
      (∀ a n, r = .read a n →
        (s.reaches p a = true → s.reaches p (a + n - 1) = true →
          answers (some (s.mem.read a n), s.anyPoison a n) (fun t => t.mem = s.mem)) ∧
        (s.reaches p a = false → answers (none, false) (fun t => t.mem = s.mem))) ∧
      (∀ a n v, r = .fetchAdd a n v → s.mem.wf → n = 4 ∨ n = 8 → a % n = 0 → s.reaches p a = true → s.poisoned a = false →
        answers (some (s.mem.read a n), false) (fun t => t.mem.num a n = (s.mem.num a n + v.toNat) % 2 ^ (8 * n) ∧
          ∀ x, x < a ∨ a + n ≤ x → t.mem.byte x = s.mem.byte x)) ∧
      (∀ a n v, r = .swap a n v → s.mem.wf → n = 4 ∨ n = 8 → a % n = 0 → s.reaches p a = true → s.poisoned a = false →
        answers (some (s.mem.read a n), false) (fun t => t.mem.num a n = v.toNat % 2 ^ (8 * n)))) ∧
    (k.pcieUp = true → k.parked = [] → exec (.sysReleaseFlushRead p) s = .next (s.setPart p { k with flush := [] })) ∧
    (k.pcieUp = true → k.parked = [] → s.accs = [] → ∃ t, exec (.pcieLinkDown p) s = .next t ∧
      (t.part p).pcieUp = false ∧ (t.part p).posted = [] ∧ (t.part p).asks = [] ∧ (t.part p).bar2 = [] ∧
      t.ctxs = s.ctxs) ∧
    (s.presents p = true → k.pcieUp = false → k.parked = [] → k.holding = [] → (∀ v, (k.vector v).pending = false) →
      exec (.pcieLinkTrained p) s = .next (s.setPart p { k with pcieUp := true, d3 := false })) ∧
    (∀ a n q, s.stage = 5 → a + n ≤ 2 ^ 42 → 1 ≤ n → s.partOf (paDie a) = some q → s.partOf (paDie (a + n - 1)) = some q →
      exec (.airufoldInboundRequest (.read a n)) s
        = .next { s.carryAll (homeRouters a n) with responses := s.responses ++ [(some (s.mem.read a n), s.anyPoison a n)] })

/-- R302 to R308, R256: in one cycle an Indigo slot carries one transfer, which lands six cycles later with what it
writes. The packets at a router's ports are read off what stands open (the model's choice, log 71): a packet takes
shared buffers of its port, 26 flits of them at most, or the one escape channel of its class there, which it has once
it has waited 64 fabric cycles unless another holds it; one of class RSP waits only for another of its class. A router
that has carried nothing for 512 powers down and a sleeping one is up 24 later. R388 to R394: a line found
uncorrectable is poisoned and recorded; of an L2 copy only a dirty home line is, any other is read again and counted
(slices' lists of lines are the model's choice, log 93); the first correction in a millisecond is recorded with its
count; a dirty line lost on eviction is poisoned and charged with 0x4A to its last writer, whose program, found by SEQ
and PROG (the model's reading, log 86), ends. -/
def Obligations.FabricAndErrors : Prop :=
  ∀ (s : State) (d n : Nat), d < 24 →
    let k := s.indigo d n
    let r := (s.die d).router n
    (∀ t, n < 12 → k.lastSlot ≠ some s.cycle → k.pick s.time (s.cycle % 64) = some t →
      ∃ u, exec (.indigoSlot d n) s = .next u ∧ { u with clusters := s.clusters } = s ∧
        (u.indigo d n).lastSlot = some s.cycle ∧ (u.indigo d n).waiting = dropFirst t k.waiting ∧
        (u.indigo d n).flying = k.flying ++ [{ t with landsAt := some (s.cycle + 6) }] ∧
        (u.indigo d n).table = k.table ∧ exec (.indigoSlot d n) u = .next u) ∧
    (∀ t at_, k.flying = [t] → k.waiting = [] → t.landsAt = some at_ → at_ ≤ s.cycle → t.writes ≠ [] →
      t.copy = false → exec (.indigoDelivery d n) s
        = .next ((s.setIndigo d n { k with flying := [] }).performWrites (tileRank t.who) d t.writes [])) ∧
    (∀ t at_ c m, k.flying = [t] → k.waiting = [] → t.landsAt = some at_ → at_ ≤ s.cycle → t.writes ≠ [] →
      t.copy = true → t.who.ctx? = some c → let h := s.homeOf c
      (s.core h.die h.core).copies.find? (fun x => x.id = t.id) = some m →
      let v := (s.setIndigo d n { k with flying := [] }).performWrites streamRank d t.writes m.landed
      ∃ u, exec (.indigoDelivery d n) s = .next u ∧ { u with cores := v.cores } = v ∧
        ∀ e x, (u.core e x).spad = (v.core e x).spad ∧ (u.core e x).gen = (v.core e x).gen) ∧
    (∀ t at_, k.flying = [t] → t.landsAt = some at_ → s.cycle < at_ →
      ∃ u, exec (.indigoDelivery d n) s = .next u ∧ u.indigo d n = k ∧ { u with clusters := s.clusters } = s) ∧
    (n < 54 →
      let was := r.arrived s.time (s.packetsAt d n)
      let flits (l : List Buffered) (port : Nat) : Nat :=
        ((l.filter (fun b => b.port = port && b.place == .shared)).map (·.packet.flits)).foldl (· + ·) 0
      ∃ t, exec (.escapeTimeout d n) s = .next t ∧ { t with dies := s.dies } = s ∧
        let now := ((t.die d).router n).held
        let taken (i : Nat) (b : Buffered) : Prop := ∃ j e, j ≠ i ∧ now[j]? = some e ∧ e.port = b.port ∧
          e.place = .escape ∧ e.packet.cls = b.packet.cls
        now.length = was.length ∧
        (∀ i b c, was[i]? = some b → now[i]? = some c → c = { b with place := c.place } ∧
          (b.place = .escape → c.place = .escape) ∧
          (b.since + 64 * 105 ≤ s.time → c.place = .escape ∨ taken i b) ∧
          (c.place = .waiting → b.place = .waiting ∧ (b.packet.cls = .rsp → taken i b))) ∧
        ∀ port, flits was port ≤ 26 → flits now port ≤ 26) ∧
    (n < 54 → r.down = false → s.packetsAt d n = [] → r.idleFrom + 512 * 105 ≤ s.time →
      exec (.routerPowerDown d n) s = .next (s.setRouter d n { r with down := true, downAt := s.time })) ∧
    (n < 54 → s.time < r.idleFrom + 512 * 105 → exec (.routerPowerDown d n) s = .next s) ∧
    (n < 54 → r.down = true → exec (.routerWake d n) s = .next (s.setRouter d n { r with
      down := false, idleFrom := s.time, upAt := if r.downAt / 105 = s.time / 105 then s.time else s.time + 24 * 105 })) ∧
    (n < 54 → r.down = false → exec (.routerWake d n) s = .next (s.setRouter d n { r with idleFrom := s.time })) ∧
    (∀ line p, paDie (64 * line) = d → paLocal (64 * line) = true → paMbz (64 * line) = 0 → s.partOf d = some p →
      (s.die d).status = .running → s.poisoned (64 * line) = false →
      ∃ f, exec (.memoryScrub line .uncorrectable) s = .next ((s.poisonLine line).emit p f) ∧
        (s.poisonLine line).poisoned (64 * line) = true ∧ f.code = 0x49 ∧ f.kind = 3 ∧
        f.val = BitVec.ofNat 64 (64 * line) ∧
        exec (.memoryScrub line .readUncorrectable) s = .next (s.poisonLine line) ∧
        (line ∈ ngetD (s.die d).l2 (line % 2 ^ 31 % 24) [] → ∀ g, nget s.tags line = some g →
          exec (.memoryScrub line (.l2Uncorrectable d)) s = .next (s.poisonLine line)) ∧
        (line ∈ ngetD (s.die d).l2 (line % 2 ^ 31 % 24) [] → nget s.tags line = none →
          exec (.memoryScrub line (.l2Uncorrectable d)) s = .next (s.countCorrected d 10 0x0A (line % 2 ^ 31) 1)) ∧
        ∀ c x, line ∉ ((s.poisonLine line).core c x).l1) ∧
    (∀ line, exec (.memoryScrub line .clean) s = .next s) ∧
    (∀ array index p, 1 ≤ array → array ≤ 13 → array ≠ 9 → s.partOf d = some p →
      let c := ngetD (s.die d).corrected array (0, none)
      (c.2 = none → ∃ f, exec (.correctedErrorRecord d array index) s = .next ((s.setDie d { s.die d with
          corrected := nset (s.die d).corrected array (0, some s.time) }).emit p f) ∧ f.code = 0xAA ∧
        f.val2 = BitVec.ofNat 64 (Nat.min (c.1 + 1) (2 ^ 64 - 1)) ∧
        f.val = BitVec.ofNat 64 (array * 2 ^ 56 + index % 2 ^ 32)) ∧
      (∀ at_, c.2 = some at_ → s.time < at_ + 1000 * tickUs → exec (.correctedErrorRecord d array index) s
        = .next (s.setDie d { s.die d with corrected := nset (s.die d).corrected array (c.1 + 1, some at_) }))) ∧
    (∀ line (g : OwnerTag), nget s.tags line = some g → (s.part g.part).canRecord = false → (s.part g.part).holding = [] →
      (s.partOf (paDie (64 * line)) = some g.part) → s.poisoned (64 * line) = false →
      ∃ t f, exec (.evictionError line) s = .next t ∧ t.poisoned (64 * line) = true ∧ nget t.tags line = none ∧
        (t.part g.part).holding = [f] ∧ f.code = 0x4A ∧ f.kind = 4 ∧ f.src = g.src ∧
        f.val = BitVec.ofNat 64 (64 * line) ∧ t.mem = s.mem ∧
        (∀ c, s.taggedContext g = some c → (t.ctx c).st = .draining ∧ (t.ctx c).lm = 0))

/-- R402 to R407, R411, R331: a die contained for any cause stands contained, or held where its HOLD bit is set, with
every program on it ended and every link of it closed; a watchdog that has not run out and a die that is cool change
nothing. What the watchdog counts, and that a contained die of a set bit is held, are the model's reading (log 83).
Re-admission takes its steps in turn from a die without programs to a running one, or to one held where it is too hot;
a step that fails leaves the die held. DIECTL holds a contained die and lets a held one start at step 1. -/
def Obligations.DiesContainedAndReadmitted : Prop :=
  ∀ (s : State) (d p : Nat), d < 24 →
    let contains (i : Instr) (held : Bool) : Prop := ∃ t, exec i s = .next t ∧
      (t.die d).status = (if held then .held else .contained) ∧
      (∀ k x, k < 48 → x < 8 → (t.ctx ⟨d, k, x⟩).st = .empty ∨ (t.ctx ⟨d, k, x⟩).st = .draining) ∧
      (∀ k, k < 38 → endDie k d = true → (t.link k).closed = true)
    let hold := bitOf (s.part p).hold d
    (s.dieLive d = true → s.partOf d = some p →
      contains (.dieContain d .directory) hold ∧ contains (.dieContain d .router) hold ∧
      contains (.dieContain d .measurement) true ∧
      (s.cutAway d = true → contains (.dieContain d .linksLost) hold) ∧
      (s.tooHot d = true → contains (.dieContain d .thermal) hold ∧ contains (.dieThermalHold d) hold) ∧
      (s.stalled d = true → contains (.dieContain d .watchdog) hold ∧ contains (.dieWatchdog d) hold)) ∧
    (s.stalled d = false → exec (.dieWatchdog d) s = .next s) ∧ (s.tooHot d = false → exec (.dieThermalHold d) s = .next s) ∧
    (s.partOf d = some p → (∀ k x, k < 48 → x < 8 → (s.ctx ⟨d, k, x⟩).st = .empty) →
      ((s.die d).status = .contained ∨ ((s.die d).status = .readmitting ∧ (s.die d).readmitStep ≠ 0) →
        ∃ t, exec (.dieReadmit d true) s = .next t ∧ (t.die d).status = .held ∧ (t.die d).readmitStep = 0) ∧
      ((s.die d).status = .contained ∨ ((s.die d).status = .readmitting ∧ (s.die d).readmitStep = 1) →
        ∃ t, exec (.dieReadmit d false) s = .next t ∧ (t.die d).status = .readmitting ∧
        (t.die d).readmitStep = 2 ∧ (∀ k, k < 48 → t.core d k = .zero) ∧ t.mem = s.mem) ∧
      ((s.die d).status = .readmitting →
        (∀ n, (s.die d).readmitStep = n → 2 ≤ n → n ≤ 5 → ∃ t, exec (.dieReadmit d false) s = .next t ∧
          (t.die d).status = .readmitting ∧ (t.die d).readmitStep = n + 1 ∧ t.mem = s.mem ∧
          (n = 4 → ∀ line, line < 2 ^ 36 → paDie (64 * line) = d → t.poisoned (64 * line) = true)) ∧
        ((s.die d).readmitStep = 6 → s.tooHot d = false → exec (.dieReadmit d false) s = .next (s.setDie d { s.die d with
          status := .running, inReset := false, readmitStep := 0 })) ∧
        ((s.die d).readmitStep = 6 → s.tooHot d = true → contains (.dieReadmit d false) hold))) ∧
    (∀ v : Word, s.bar0Open p true = true → bitOf (s.part p).dies d = true →
      ∃ t, exec (.diectlWrite p v) s = .next t ∧ (t.part p).hold = v.extractLsb' 0 24 &&& (s.part p).dies ∧
        ((s.die d).status = .contained → v.getLsbD d = true → (t.die d).status = .held) ∧
        ((s.die d).status = .held → bitOf (s.part p).hold d = true → v.getLsbD d = false →
          (t.die d).status = .readmitting ∧ (t.die d).readmitStep = 1) ∧
        ((s.die d).status = .running → t.die d = s.die d) ∧ t.mem = s.mem ∧ t.ctxs = s.ctxs)

/-- R325 to R332, R25 to R30, R321: bring-up passes its stages to Ready in turn, or fails with its code, stage 1 with
its own where firmware does not verify (the model's reading of the codes, log 84). A plan forms its partitions, each
with its dies, where every die that changes its partition stands in reset (the model's reading, log 75), and before
Ready gives the module its domain (the model's reading, log 79). Each interval sets the gates: the largest that keeps
a die within 640 W where no other limit applies, 16 less while it is hot (the model's reading of what the event
brings, log 76). -/
def Obligations.ModuleBroughtUp : Prop :=
  ∀ s : State,
    (s.powerGood = false → exec .powerGood s = .next { s with powerGood := true, stage := 0 }) ∧
    (∀ fw, s.powerGood = true → s.stage < 4 → s.stage ≠ 1 →
      exec (.bringupStage ⟨none, fw⟩) s = .next { s with stage := s.stage + 1 }) ∧
    (∀ fw fail, s.powerGood = true → s.stage = 1 → fail ≠ some 5 →
      ∃ t, exec (.bringupStage ⟨fail, fw⟩) s = .next t ∧
        if firmwareOk fw then t = { s with stage := 2, fwok := true } else t.stage = 15 ∧ t.failcode = 1 ∧ t.fwok = s.fwok) ∧
    (∀ fw, s.powerGood = true → s.stage = 4 → (∀ d, d < 24 → (s.partOf d).isSome = true ∧ s.tooHot d = false) →
      ∃ t, exec (.bringupStage ⟨none, fw⟩) s = .next t ∧ t.stage = 5 ∧ t.readyAt = s.time ∧
        (∀ d, d < 24 → (t.die d).inReset = false) ∧ t.mem = s.mem ∧ t.ctxs = s.ctxs) ∧
    (∀ (c : BitVec 8) fw, s.powerGood = true → s.stage < 5 → c = 5 ∨ (1 < s.stage ∧ c.toNat = s.stage) →
      ∃ t, exec (.bringupStage ⟨some c, fw⟩) s = .next t ∧ t.stage = 15 ∧ t.failcode = c) ∧
    (∀ plan dom, s.formable plan = true → s.domainOk dom = true →
      (s.stage = 5 → ∀ d, d < 24 → s.tooHot d = false) → ∃ t, exec (.partitionForm ⟨plan, dom⟩) s = .next t ∧
      t.mem = s.mem ∧ (∀ n m, dom = some (n, m) → t.domSize = n ∧ t.domModule = m) ∧
      (dom = none → t.domSize = s.domSize ∧ t.domModule = s.domModule) ∧
      (∀ n q, plan[n]? = some q → (t.part n).formed = true ∧ (t.part n).dies = maskOf q.dies ∧ (t.part n).resetting = false) ∧
      (∀ n, n < 4 → plan.length ≤ n → (t.part n).formed = false)) ∧
    (∀ env : ThermalReading, s.stage = 5 → (s.gateAt = 0 ∨ s.gateAt + 100 * tickUs ≤ s.time) → (s.part 0).formed = true →
      (s.part 0).capEn = false → (∀ n, 1 ≤ n → n < 4 → (s.part n).formed = false) → env.tin ≤ 35 → 20 ≤ env.flow →
      (∀ j ∈ env.junction, j < 110) → (∀ d, d < 24 → bitOf (s.part 0).dies d = true) →
      ∃ t, exec (.gateUpdate env) s = .next t ∧ t.gateAt = Nat.max 1 s.time ∧ t.tin.toNat = env.tin ∧ t.mem = s.mem ∧
        ∀ d, d < 24 → let j := (env.junction[d]?).getD 0
          let g := Nat.max 1 (Nat.min 255 (Config.gateWithin d 640000 (s.freeCtr + d)))
          (t.die d).junction = j ∧
          (j < 97 → (t.die d).gate = g ∧ (t.die d).hot = false) ∧
          (100 ≤ j → (t.die d).gate = Nat.min g (Nat.max 1 ((s.die d).gate - 16)) ∧ (t.die d).hot = true)) ∧
    (s.gateAt ≠ 0 → s.time < s.gateAt + 100 * tickUs → ∀ env, exec (.gateUpdate env) s = .next s)

/-- R249, R276 to R279, R297, R323, R324, R332, R358, R385, R410: the registers of a partition that its function takes
writes of. Launch queue n takes LQBASE while disabled, LQCFG unless its size is reserved or changes while enabled,
when the whole write has no effect, EN with it (the model's reading, log 59), EN rising zeroing WP and RP, and LQWP,
which OVF refuses where it overfills; the fault queue likewise. IMGINV refuses an image number until DONE, which is
set once nothing names the number (the model's reading, log 60). FEATACK accepts no feature. PWRCAP holds CAP within
160 W and 640 W a die. ATTCTL starts a report, which is written where the partition may reach (the model's reading,
log 80), with REV.CODE a constant that nothing states (log 7). The other writable registers take the fields written.
-/
def Obligations.RegistersWritten : Prop :=
  ∀ (s : State) (p n : Nat) (v : Word), s.bar0Open p false = true →
    let k := s.part p
    let q := k.queue n
    let queue (x : LaunchQueue) : Host.Outcome State Fault Refusal := .next (s.setPart p { k with lq := nset k.lq n x })
    let takes (i : Instr) (x : Partition) : Prop := exec i s = .next (s.setPart p x)
    let size : BitVec 5 := v.extractLsb' 0 5
    let en := v.getLsbD 5
    (n < 64 →
      (q.en = false → exec (.lqbaseWrite p n v) s = queue { q with base := v.extractLsb' 6 51 }) ∧
      (q.en = true → exec (.lqbaseWrite p n v) s = .next s) ∧
      (16 < size.toNat ∨ (q.en = true ∧ size ≠ q.log2) → exec (.lqcfgWrite p n v) s = .next s) ∧
      (size.toNat ≤ 16 → q.en = false → exec (.lqcfgWrite p n v) s
        = queue (if en then { q with en := true, log2 := size, wp := 0, rp := 0 } else { q with log2 := size })) ∧
      (size.toNat ≤ 16 → q.en = true → size = q.log2 → exec (.lqcfgWrite p n v) s = queue { q with en := en }) ∧
      (let wp : BitVec 32 := v.extractLsb' 0 32;
        ((wp - q.rp).toNat ≤ 2 ^ q.log2.toNat → exec (.lqwpWrite p n v) s = queue { q with wp := wp }) ∧
        (2 ^ q.log2.toNat < (wp - q.rp).toNat → exec (.lqwpWrite p n v) s = queue { q with ovf := true }))) ∧
    (4 ≤ size.toNat → size.toNat ≤ 16 → k.fqEn = false → takes (.fqcfgWrite p v)
      (if en then { k with fqEn := true, fqLog2 := size, fqWp := 0, fqRp := 0 } else { k with fqLog2 := size })) ∧
    (size.toNat < 4 ∨ 16 < size.toNat ∨ (k.fqEn = true ∧ size ≠ k.fqLog2) → exec (.fqcfgWrite p v) s = .next s) ∧
    (let rp : BitVec 32 := v.extractLsb' 0 32;
      ((k.fqWp - rp).toNat ≤ 2 ^ k.fqLog2.toNat → takes (.fqrpWrite p v) { k with fqRp := rp }) ∧
      (2 ^ k.fqLog2.toNat < (k.fqWp - rp).toNat → exec (.fqrpWrite p v) s = .next s)) ∧
    (let m : BitVec 16 := v.extractLsb' 0 16;
      (v.getLsbD 63 = true → k.imgDone = true →
        takes (.imginv p v) { k with imgNum := m, imgDone := false, imgDead := [m.toNat] }) ∧
      (v.getLsbD 63 = true → k.imgDone = false → exec (.imginv p v) s = .next s) ∧
      (v.getLsbD 63 = false → takes (.imginv p v) { k with imgNum := m })) ∧
    (∀ m, k.imgDead = [m] → k.launches = [] → (∀ c, (s.ctx c).st ≠ .empty → (s.ctx c).lrec.image ≠ m) →
      ∃ t, exec (.imginvDone p) s = .next t ∧ t.part p = { k with imgDead := [], imgDone := true } ∧ t.mem = s.mem ∧
        t.ctxs = s.ctxs ∧ (∀ d c, d < 24 → c < 48 → bitOf k.dies d = true →
          (∀ l ∈ (t.core d c).icache, l.image ≠ m) ∧ ∀ x ∈ (t.core d c).cwtTag, x.2 ≠ m)) ∧
    ((∀ i, (k.queue i).en = false) → (∀ c, (s.ctx c).st = .empty) → ∀ hi,
      ∃ t, exec (.featackWrite p hi v) s = .next t ∧ (t.part p).cfgfp = s.fingerprint k.dies (t.part p).feat ∧
        (∀ b, b < 128 → (t.part p).feat.getLsbD b = true → k.feat.getLsbD b = true) ∧ { t with parts := s.parts } = s) ∧
    ((k.queue n).en = true → n < 64 → ∀ hi, exec (.featackWrite p hi v) s = .next s) ∧
    (let w := (bitsOf k.dies).length
      let asked := v.toNat % 65536
      takes (.pwrcapWrite p v) { k with capEn := v.getLsbD 16, cap := BitVec.ofNat 16 (if asked < 160 * w then 160 * w
        else if 640 * w < asked then 640 * w else asked) }) ∧
    (let a : BitVec 38 := v.extractLsb' 14 38;
      (v.getLsbD 63 = true → k.attRun = none → takes (.attctlGo p v) { k with attAddr := a, attRun := some a }) ∧
      (v.getLsbD 63 = true → k.attRun ≠ none → exec (.attctlGo p v) s = .next s)) ∧
    (∀ a, k.attRun = some a → paSpace (a.toNat * 16384) = 0 → paDie (a.toNat * 16384) < 24 →
      bitOf k.dies (paDie (a.toNat * 16384)) = true → paMbz (a.toNat * 16384) = 0 → s.mem.wf →
      let pa := a.toNat * 16384
      ∃ t, exec (.attestDone p) s = .next t ∧ t.part p = { k with attRun := none } ∧
        t.mem.read pa 32 = s.mem.read pa 32 ∧ t.mem.read (pa + 32) 8 = toBytes 8 Config.revCode.toNat ∧
        t.mem.read (pa + 40) 8 = toBytes 8 k.cfgfp.toNat ∧
        (∀ x, x < pa ∨ pa + 16384 ≤ x → t.mem.byte x = s.mem.byte x)) ∧
    (takes (.mgmtRegisterWrite p 0x100800 v) { k with saveBase := v.extractLsb' 24 33 } ∧
      takes (.mgmtRegisterWrite p 0x100818 v) { k with imgBase := v.extractLsb' 6 51 } ∧
      takes (.mgmtRegisterWrite p 0x100820 v) { k with imgCnt := v.extractLsb' 0 16 } ∧
      takes (.mgmtRegisterWrite p 0x200000 v) { k with ptrootV := v.getLsbD 63, ptroot := v.extractLsb' 12 40 } ∧
      takes (.mgmtRegisterWrite p 0x200008 v) { k with tlbVpn := v.extractLsb' 16 41 } ∧
      takes (.mgmtRegisterWrite p 0x200020 v) { k with fanStale := k.fanStale && v.getLsbD 0 } ∧
      (k.fqEn = false → takes (.mgmtRegisterWrite p 0x300000 v) { k with fqBase := v.extractLsb' 6 46 }) ∧
      (k.fqEn = true → exec (.mgmtRegisterWrite p 0x300000 v) s = .next s) ∧
      (n < 64 → exec (.mgmtRegisterWrite p (0x100018 + 32 * n) v) s = queue { q with ovf := q.ovf && v.getLsbD 32 }) ∧
      ∃ t, exec (.mgmtRegisterWrite p 0x100808 v) s = .next t ∧ (t.part p).saveCnt = v.extractLsb' 0 16 ∧ t.mem = s.mem)

/-- R79, R96 to R100, R137, R177, R188: the worked encodings of the spec decode to the instructions they stand for,
with every field read from its place. -/
def Obligations.SpecWordsDecode : Prop :=
  decodeWord 0x04C62800 = .ok (.add 6 6 5 0) ∧
  decodeWord 0x0884FFF8 = .ok (.addi 4 4 0xFFF8) ∧
  decodeWord 0x04600140 = .ok (.movl 3 1) ∧
  decodeWord 0x5C820482 = .ok (.loadAcquire 4 2 0 2 2 2) ∧
  decodeWord 0x812B57BA = .ok (.amoadd 9 11 10 15 3 2 1) ∧
  decodeWord 0xC400010A = .ok (.fencex 2 1 2) ∧
  decodeWord 0xE280000C = .ok (.bdkLong 1 0 12) ∧
  decodeWord 0xFCA03001 = .ok (.csrr 5 1) ∧
  decodeWord 0xF4400002 = .ok (.waitc 2 0 0) ∧
  decodeWord 0xFC001002 = .ok (.trap 2) ∧
  decodeWord 0xF8850003 = .ok (.mset 4 5 3) ∧
  decodeWord 0xF8C70043 = .ok (.mloop 6 7 3) ∧
  decodeWord 0xF909024A = .ok (.qcvt 8 9 1 2) ∧
  decodeWord 0xF8850489 = .ok (.cpyy 4 5 0 1 1) ∧
  decodeWord 0xF98D2800 = .ok (.turn 12 13 2) ∧
  decodeWord 0xED000008 = .ok (.loop 8 8) ∧
  decodeWord 0xE8800120 = .ok (.lstr 4 0 1) ∧
  decodeWord 0xFC000000 = .ok .nop ∧
  decodeWord 0xFC000001 = .error .reservedField ∧
  decodeWord 0x00000000 = .error .undefined ∧
  decodeSlot .xf 0x03310C0050418103 = .ok (some (.gshf ⟨3, 1, 0x11, 0, 0, 3, 0, 5, 2, 6, 0, 1⟩)) ∧
  decodeSlot .va 0 = .ok none ∧
  decodeHeader 0x00140000 = ⟨0, false, false, false, false, 1, 2, false, 0⟩ ∧
  (decodeHeader 0x00140000).ok = true ∧ (decodeHeader 0x00140000).len = 4

/-- R85 to R100, R188, R210: every well-formed instruction with a word, and every one with a slot, at every value of
its operands, decodes back to itself; a word decodes to one instruction only, whose word it is. -/
def Obligations.EncodingsRoundTrip : Prop :=
  (∀ i w, WellFormed i → encodeWord i = some w → decodeWord w = .ok i) ∧
  (∀ i b, WellFormed i → encodeSlot i = some b → ∃ p, decodeSlot p b = .ok (some i)) ∧
  (∀ w i, decodeWord w = .ok i → WellFormed i ∧ encodeWord i = some w) ∧
  (∀ p b i, decodeSlot p b = .ok (some i) → WellFormed i ∧ encodeSlot i = some b)

/-- R86, R87, R94, R101, R102 (the schedule and its ticks are the model's choice, log 1): a step is exec of the
schedule's next entry after its ticks; with an empty schedule it is the focus core's own cycle, which takes 80 ticks,
or in Failed the fault bringUpFailed (the model's choice, log 89); and a bundle fetched at the PC of a part to which
its sequencer gives the cycle, whose one word decodes to a well-formed instruction, with nothing that holds it and its
checks passed, issues by exec of that instruction on the bundle's operands at its start, then closes the bundle: the
PC is at the next bundle before the word runs, and what its accesses depend on (the model's reading, log 114), the
count and what ends a bundle come after it. A part to which it does not give the cycle issues nothing (R38, R290; a
part's own row of the table is the model's choice, log 31). -/
def Obligations.StepRunsDecoded : Prop :=
  (∀ (s : State) (e : Input) (r : List Input), s.agenda = e :: r →
    step s = exec e.step { s with time := s.time + e.dt, agenda := r }) ∧
  (∀ s : State, s.agenda = [] → s.stage ≠ 15 → step s = afterCycle (exec s.ownStep s)) ∧
  (∀ s : State, s.agenda = [] → s.stage = 15 → step s = .fault .bringUpFailed) ∧
  (∀ (i : Instr) (s t : State), (encodeWord i).isSome ∨ (encodeSlot i).isSome → exec i s = .next t → s.runWord i = t) ∧
  (∀ (s g u v t : State) (p : PartRef) (b : Bundle) (w : BitVec 32) (i : Instr), s.grant p = some g →
    g.IssuesAlone p u b w i → wordPhase i ≠ 6 → (b.header.ends && endDrops i) = false → v = u.atStart p b →
    exec i v = .next t →
    exec (.bundleIssue p) s = .next
      ((((t.laterWrites p b).depend p b (u.thread p).dep).closeBundle p b (u.unsplit p)).afterBundle p b.safe)) ∧
  (∀ (s : State) (p : PartRef), s.grant p = none → exec (.bundleIssue p) s = .next s)

/-- R38, R94, R147: a bundle of one NOP completes in a cycle that its part's sequencer gives it (the model's choice of
that row, log 31): the count of its part advances by one, the PC is at the next bundle, no register of the part
changes and no byte of memory does. -/
def Obligations.BundlesIssue : Prop :=
  ∀ (s g u : State) (p : PartRef) (b : Bundle) (w : BitVec 32), s.grant p = some g → g.IssuesAlone p u b w .nop →
    b.header.ends = false → (∀ c, p.ctx? = some c → (g.ctx c).spare = none ∧ (g.ctx c).want = none) →
    (g.thread p).loops = [] → (g.thread p).am ≠ 0 → (g.thread p).pend = [] → (g.thread p).handler = none →
    ∃ t, exec (.bundleIssue p) s = .next t ∧ (t.thread p).pc = b.next ∧ (t.thread p).regs = (g.thread p).regs ∧
      (t.thread p).issued = (g.thread p).issued + 1 ∧ (t.thread p).am = (g.thread p).am ∧ t.mem = g.mem ∧
      t.accs.map (·.id) = g.accs.map (·.id) ∧ ((g.thread p).fences = [] → (g.thread p).dep = [] → t.accs = g.accs)

/-- R14, R39, R284, R309, R325, R331, R342 and the reset columns of the register tables: what the module holds at
reset. The empty memory, the empty schedule and the zeros where no rule gives a value are the model's choices (logs 1,
2, 3). -/
def Obligations.ResetState : Prop :=
  let s := State.reset
  s.stage = 0 ∧ s.powerGood = false ∧ s.agenda = [] ∧ s.accs = [] ∧ s.Canonical ∧
  (∀ d, (s.die d).inReset = true ∧ (s.die d).lastCore = 47 ∧ (s.die d).lastCluster = 11 ∧ (s.die d).gate = 255) ∧
  (∀ d c, (s.core d c).gen = [] ∧ (s.core d c).matq = [] ∧ (s.core d c).tlb = []) ∧
  (∀ r, (s.ctx r).st = .empty ∧ (s.ctx r).arstat = 0 ∧ (s.ctx r).main.trapcause = 0 ∧ (s.ctx r).main.trapval = 0 ∧
    (s.ctx r).main.reg 0 = 0) ∧
  (∀ l, (s.link l).up = 0x00FF ∧ (s.link l).auto = true ∧ (s.link l).queue = []) ∧
  (∀ p, let k := s.part p
    k.formed = false ∧ k.ptrootV = false ∧ k.tlbDone = true ∧ k.preDone = true ∧ k.imgDone = true ∧ k.attRun = none ∧
    k.saveBase = 0 ∧ k.saveCnt = 0 ∧ k.imgBase = 0 ∧ k.imgCnt = 0 ∧ k.fqEn = false ∧ k.fqWp = 0 ∧ k.fqRp = 0 ∧
    k.feat = 0 ∧ k.hold = 0 ∧ k.seq = 0 ∧ k.fanStale = false ∧
    ∀ n, (k.queue n).en = false ∧ (k.queue n).wp = 0 ∧ (k.queue n).rp = 0 ∧ (k.queue n).ovf = false)

/-- Logs 1 and 2: memory keeps its canonical form (addresses strictly rising, no byte listed that an unlisted address
reads as) through every step, whatever the state and the schedule; so equal memories are equal lists. -/
def Obligations.CanonicalKept : Prop :=
  ∀ s t : State, s.Canonical → step s = .next t → t.Canonical
end

