-- ==== Sys2Proof/Laws/Maps.lean ====
section
/-!
SUPPORT. The laws of the maps every field of the state is held in: a read after a write at the same key and at another,
and the keys staying in rising order.
-/
namespace Sys2Proof.Machine

variable {α : Type}

theorem nget_nset (m : NMap α) (x y : Nat) (a : α) : nget (nset m x a) y = if x = y then some a else nget m y := by
  induction m with
  | nil => simp [nset, nget]
  | cons p r ih =>
    obtain ⟨k, v⟩ := p
    unfold nset
    split
    · simp [nget]
    · split
      · next h => subst h; by_cases hy : x = y <;> simp [nget, hy]
      · next h =>
        by_cases hk : k = y
        · subst hk; simp [nget, h]
        · simp [nget, hk, ih]

@[simp] theorem nget_nset_self (m : NMap α) (x : Nat) (a : α) : nget (nset m x a) x = some a := by simp [nget_nset]

theorem nget_nset_other (m : NMap α) {x y : Nat} (a : α) (h : x ≠ y) : nget (nset m x a) y = nget m y := by
  simp [nget_nset, h]

theorem ngetD_nset (m : NMap α) (x y : Nat) (a d : α) : ngetD (nset m x a) y d = if x = y then a else ngetD m y d := by
  unfold ngetD; rw [nget_nset]; split <;> simp

@[simp] theorem ngetD_nset_self (m : NMap α) (x : Nat) (a d : α) : ngetD (nset m x a) x d = a := by
  simp [ngetD_nset]

theorem ngetD_nset_other (m : NMap α) {x y : Nat} (a d : α) (h : x ≠ y) : ngetD (nset m x a) y d = ngetD m y d := by
  simp [ngetD_nset, h]

theorem nget_nerase (m : NMap α) (x y : Nat) : nget (nerase m x) y = if x = y then none else nget m y := by
  induction m with
  | nil => simp [nerase, nget]
  | cons p r ih =>
    obtain ⟨k, v⟩ := p
    unfold nerase at *
    by_cases hk : k = x
    · subst hk
      by_cases hy : k = y
      · subst hy; simpa [nget] using ih
      · simpa [nget, hy] using ih
    · by_cases hy : k = y
      · subst hy; simp [nget, hk, Ne.symm hk]
      · simp [nget, hk, hy, ih]

/-- Keys in strictly rising order. -/
def keysRise : NMap α → Prop
  | [] => True
  | (_, _) :: [] => True
  | (a, _) :: (b, w) :: r => a < b ∧ keysRise ((b, w) :: r)

theorem keysRise_tail {p : Nat × α} {r : NMap α} (h : keysRise (p :: r)) : keysRise r := by
  cases r with
  | nil => trivial
  | cons q t => exact h.2

theorem keysRise_nset (m : NMap α) (x : Nat) (a : α) (h : keysRise m) : keysRise (nset m x a) := by
  induction m with
  | nil => trivial
  | cons p r ih =>
    obtain ⟨k, v⟩ := p
    unfold nset
    split
    · next hx => exact ⟨hx, h⟩
    · split
      · next hx => subst hx; cases r <;> exact h
      · next h1 h2 =>
        have ih := ih (keysRise_tail h)
        cases r with
        | nil => exact ⟨by omega, trivial⟩
        | cons q t =>
          obtain ⟨b, w⟩ := q
          have hb : k < b := h.1
          unfold nset at ih ⊢
          split
          · next hx => simp only [hx, if_true] at ih; exact ⟨by omega, ih⟩
          · next hx =>
            simp only [hx, if_false] at ih
            split
            · next he => subst he; simp only [if_true] at ih; exact ⟨by omega, ih⟩
            · next he => simp only [he, if_false] at ih; exact ⟨hb, ih⟩

end Sys2Proof.Machine
end

