-- ==== Sys2Proof/Laws/Memory.lean ====
section
/-!
SUPPORT. Memory: a read after a write, and the canonical form, which every operation keeps.
-/
namespace Sys2Proof.Machine

theorem Memory.byte_of_lt (a : Nat) (v : Byte) (r : Memory) (x : Nat) (h : x < a) :
    Memory.byte ((a, v) :: r) x = Memory.blank := by
  have : a ≠ x := by omega
  simp [Memory.byte, this, h]

theorem Memory.ok_tail {p : Host.Cell} {r : Memory} (h : Memory.ok (p :: r) = true) : Memory.ok r = true := by
  obtain ⟨a, v⟩ := p
  cases r with
  | nil => rfl
  | cons q t =>
    obtain ⟨b, w⟩ := q
    simp only [Memory.ok, Bool.and_eq_true] at h
    exact h.2

/-- The entries below an address are none of its bytes'. -/
theorem Memory.byte_upFrom (m : Memory) {a x : Nat} (h : a ≤ x) : (m.upFrom a).byte x = m.byte x := by
  induction m with
  | nil => rfl
  | cons e r ih =>
    obtain ⟨k, v⟩ := e
    simp only [upFrom, List.dropWhile_cons] at ih ⊢
    split
    next g =>
      have g : k < a := by simpa using g
      rw [ih, byte, if_neg (by omega), if_neg (by omega)]
    · rfl

/-- What memory reads is its bytes in order. -/
theorem Memory.read_eq (m : Memory) (a n : Nat) : m.read a n = (List.range n).map (fun i => m.byte (a + i)) := by
  simp only [read, byte_upFrom m (Nat.le_add_right a _)]

/-- Below the first address of a canonical memory every byte is blank. -/
theorem Memory.byte_below (r : Memory) (k x : Nat) (h : ∀ p ∈ r, k ≤ p.1) (hx : x < k) :
    Memory.byte r x = Memory.blank := by
  cases r with
  | nil => rfl
  | cons q t =>
    obtain ⟨b, w⟩ := q
    have hb : k ≤ b := h (b, w) (by simp)
    exact Memory.byte_of_lt b w t x (by omega)

theorem Memory.ok_first {a : Nat} {v : Byte} {r : Memory} (h : Memory.ok ((a, v) :: r) = true) :
    v ≠ Memory.blank ∧ ∀ p ∈ r, a < p.1 := by
  induction r generalizing a v with
  | nil => simpa [Memory.ok] using h
  | cons q t ih =>
    obtain ⟨b, w⟩ := q
    simp only [Memory.ok, Bool.and_eq_true, bne_iff_ne, ne_eq, decide_eq_true_eq] at h
    obtain ⟨⟨hv, hab⟩, hr⟩ := h
    refine ⟨hv, fun p hp => ?_⟩
    rcases List.mem_cons.mp hp with rfl | hp
    · exact hab
    · exact Nat.lt_trans hab ((ih hr).2 p hp)

theorem Memory.ok_cons {a : Nat} {v : Byte} {r : Memory} (hv : v ≠ Memory.blank) (hr : Memory.ok r = true)
    (h : ∀ p ∈ r, a < p.1) : Memory.ok ((a, v) :: r) = true := by
  cases r with
  | nil => simpa [Memory.ok] using hv
  | cons q t =>
    obtain ⟨b, w⟩ := q
    have hab : a < b := h (b, w) (by simp)
    simp [Memory.ok, hv, hab, hr]

theorem Memory.set_mem {m : Memory} {x : Nat} {v : Byte} {p : Host.Cell} (h : p ∈ m.set x v) : p = (x, v) ∨ p ∈ m := by
  induction m with
  | nil =>
    simp only [Memory.set] at h
    split at h <;> simp_all
  | cons q r ih =>
    obtain ⟨a, w⟩ := q
    simp only [Memory.set] at h
    split at h
    · split at h <;> simp_all
    · split at h
      · next hx =>
        split at h
        · exact .inr (List.mem_cons_of_mem _ h)
        · rcases List.mem_cons.mp h with h | h
          · exact .inl (hx ▸ h)
          · exact .inr (List.mem_cons_of_mem _ h)
      · rcases List.mem_cons.mp h with rfl | h
        · exact .inr (by simp)
        · rcases ih h with h | h
          · exact .inl h
          · exact .inr (List.mem_cons_of_mem _ h)

/-- A byte write keeps the canonical form. -/
theorem Memory.set_wf (m : Memory) (x : Nat) (v : Byte) (h : m.wf) : (m.set x v).wf := by
  induction m with
  | nil =>
    simp only [Memory.set, Memory.wf]
    split
    · rfl
    · next hv => simpa [Memory.ok] using hv
  | cons q r ih =>
    obtain ⟨a, w⟩ := q
    have ⟨hw, hr⟩ := Memory.ok_first h
    have ht := Memory.ok_tail h
    simp only [Memory.set, Memory.wf]
    split
    · next hx =>
      split
      · exact h
      · next hv =>
        refine Memory.ok_cons hv h fun p hp => ?_
        rcases List.mem_cons.mp hp with rfl | hp
        · exact hx
        · exact Nat.lt_trans hx (hr p hp)
    · split
      · split
        · exact ht
        · next hv => exact Memory.ok_cons hv ht hr
      · next h1 h2 =>
        refine Memory.ok_cons hw (ih ht) fun p hp => ?_
        rcases Memory.set_mem hp with rfl | hp
        · show a < x; omega
        · exact hr p hp

/-- A write of bytes keeps the canonical form. -/
theorem Memory.write_wf (m : Memory) (a : Nat) (l : List Byte) (h : m.wf) : (m.write a l).wf := by
  induction l generalizing m a with
  | nil => exact h
  | cons b bs ih => exact ih _ _ (Memory.set_wf m a b h)

/-- A byte read after a byte write, in a canonical memory. -/
theorem Memory.byte_set (m : Memory) (x y : Nat) (v : Byte) (h : m.wf) :
    (m.set x v).byte y = if y = x then v else m.byte y := by
  induction m with
  | nil =>
    simp only [Memory.set]
    split
    · next hv => subst hv; simp [Memory.byte]
    · by_cases hy : y = x
      · subst hy; simp [Memory.byte]
      · simp [Memory.byte, hy, Ne.symm hy]
  | cons q r ih =>
    obtain ⟨a, w⟩ := q
    have ⟨hw, hr⟩ := Memory.ok_first h
    have ht := Memory.ok_tail h
    simp only [Memory.set]
    split
    · next hx =>
      split
      · next hv =>
        by_cases hy : y = x
        · subst hy; rw [Memory.byte_of_lt a w r y hx]; simp [hv]
        · simp [hy]
      · by_cases hy : y = x
        · subst hy; simp [Memory.byte]
        · by_cases hlt : y < x
          · have h1 : a ≠ y := by omega
            have h2 : y < a := by omega
            simp [Memory.byte, hy, Ne.symm hy, hlt, h1, h2]
          · simp [Memory.byte, hy, Ne.symm hy, hlt]
    · split
      · next hx =>
        subst hx
        split
        · next hv =>
          by_cases hy : y = x
          · subst hy
            rw [Memory.byte_below r (y + 1) y (fun p hp => hr p hp) (by omega)]; simp [hv]
          · by_cases hlt : y < x
            · rw [Memory.byte_below r x y (fun p hp => Nat.le_of_lt (hr p hp)) hlt, Memory.byte_of_lt x w r y hlt]
              simp [hy]
            · simp [Memory.byte, hy, Ne.symm hy, hlt]
        · by_cases hy : y = x
          · subst hy; simp [Memory.byte]
          · simp [Memory.byte, hy, Ne.symm hy]
      · next h1 h2 =>
        by_cases hy : y = x
        · subst hy
          have : a ≠ y := by omega
          simp [Memory.byte, this, h1, ih ht]
        · by_cases ha : a = y
          · simp [Memory.byte, ha, hy]
          · by_cases hlt : y < a
            · simp [Memory.byte, ha, hlt, hy]
            · simp [Memory.byte, ha, hlt, hy, ih ht]

/-- A byte read after a write of bytes: inside the run its byte, outside it what it was. -/
theorem Memory.byte_write (m : Memory) (a y : Nat) (l : List Byte) (h : m.wf) :
    (m.write a l).byte y = if a ≤ y ∧ y < a + l.length then (l[y - a]?).getD 0 else m.byte y := by
  induction l generalizing m a with
  | nil => have : ¬(a ≤ y ∧ y < a) := by omega
           simp [Memory.write, this]
  | cons b bs ih =>
    simp only [Memory.write, List.length_cons]
    rw [ih _ _ (Memory.set_wf m a b h), Memory.byte_set m a y b h]
    by_cases hy : y = a
    · subst hy
      have h1 : ¬(y + 1 ≤ y ∧ y < y + 1 + bs.length) := by omega
      have h2 : y ≤ y ∧ y < y + (bs.length + 1) := by omega
      rw [if_neg h1, if_pos h2]; simp
    · by_cases hin : a + 1 ≤ y ∧ y < a + 1 + bs.length
      · have h2 : a ≤ y ∧ y < a + (bs.length + 1) := by omega
        have h3 : y - a = (y - (a + 1)) + 1 := by omega
        rw [if_pos hin, if_pos h2, h3]; simp
      · have h2 : ¬(a ≤ y ∧ y < a + (bs.length + 1)) := by omega
        rw [if_neg hin, if_neg h2, if_neg hy]

end Sys2Proof.Machine
end

