-- ==== Sys2Proof/Laws/State.lean ====
section
/-!
SUPPORT. What each named update of the state leaves as it was, field by field, and what is read back where it wrote.
-/
namespace Sys2Proof.Machine

/-! ### setDie -/

@[simp] theorem State.setDie_time (s : State) (d : Nat) (x : Die) : (s.setDie d x).time = s.time := rfl
@[simp] theorem State.setDie_readyAt (s : State) (d : Nat) (x : Die) : (s.setDie d x).readyAt = s.readyAt := rfl
@[simp] theorem State.setDie_powerGood (s : State) (d : Nat) (x : Die) : (s.setDie d x).powerGood = s.powerGood := rfl
@[simp] theorem State.setDie_stage (s : State) (d : Nat) (x : Die) : (s.setDie d x).stage = s.stage := rfl
@[simp] theorem State.setDie_fwok (s : State) (d : Nat) (x : Die) : (s.setDie d x).fwok = s.fwok := rfl
@[simp] theorem State.setDie_failcode (s : State) (d : Nat) (x : Die) : (s.setDie d x).failcode = s.failcode := rfl
@[simp] theorem State.setDie_flow (s : State) (d : Nat) (x : Die) : (s.setDie d x).flow = s.flow := rfl
@[simp] theorem State.setDie_tout (s : State) (d : Nat) (x : Die) : (s.setDie d x).tout = s.tout := rfl
@[simp] theorem State.setDie_tin (s : State) (d : Nat) (x : Die) : (s.setDie d x).tin = s.tin := rfl
@[simp] theorem State.setDie_domSize (s : State) (d : Nat) (x : Die) : (s.setDie d x).domSize = s.domSize := rfl
@[simp] theorem State.setDie_domModule (s : State) (d : Nat) (x : Die) : (s.setDie d x).domModule = s.domModule := rfl
@[simp] theorem State.setDie_gateAt (s : State) (d : Nat) (x : Die) : (s.setDie d x).gateAt = s.gateAt := rfl
@[simp] theorem State.setDie_mem (s : State) (d : Nat) (x : Die) : (s.setDie d x).mem = s.mem := rfl
@[simp] theorem State.setDie_code (s : State) (d : Nat) (x : Die) : (s.setDie d x).code = s.code := rfl
@[simp] theorem State.setDie_poison (s : State) (d : Nat) (x : Die) : (s.setDie d x).poison = s.poison := rfl
@[simp] theorem State.setDie_tags (s : State) (d : Nat) (x : Die) : (s.setDie d x).tags = s.tags := rfl
@[simp] theorem State.setDie_dir (s : State) (d : Nat) (x : Die) : (s.setDie d x).dir = s.dir := rfl
@[simp] theorem State.setDie_cores (s : State) (d : Nat) (x : Die) : (s.setDie d x).cores = s.cores := rfl
@[simp] theorem State.setDie_ctxs (s : State) (d : Nat) (x : Die) : (s.setDie d x).ctxs = s.ctxs := rfl
@[simp] theorem State.setDie_clusters (s : State) (d : Nat) (x : Die) : (s.setDie d x).clusters = s.clusters := rfl
@[simp] theorem State.setDie_links (s : State) (d : Nat) (x : Die) : (s.setDie d x).links = s.links := rfl
@[simp] theorem State.setDie_parts (s : State) (d : Nat) (x : Die) : (s.setDie d x).parts = s.parts := rfl
@[simp] theorem State.setDie_ports (s : State) (d : Nat) (x : Die) : (s.setDie d x).ports = s.ports := rfl
@[simp] theorem State.setDie_accs (s : State) (d : Nat) (x : Die) : (s.setDie d x).accs = s.accs := rfl
@[simp] theorem State.setDie_colls (s : State) (d : Nat) (x : Die) : (s.setDie d x).colls = s.colls := rfl
@[simp] theorem State.setDie_joins (s : State) (d : Nat) (x : Die) : (s.setDie d x).joins = s.joins := rfl
@[simp] theorem State.setDie_responses (s : State) (d : Nat) (x : Die) : (s.setDie d x).responses = s.responses := rfl
@[simp] theorem State.setDie_cmds (s : State) (d : Nat) (x : Die) : (s.setDie d x).cmds = s.cmds := rfl
@[simp] theorem State.setDie_nextId (s : State) (d : Nat) (x : Die) : (s.setDie d x).nextId = s.nextId := rfl
@[simp] theorem State.setDie_freeCtr (s : State) (d : Nat) (x : Die) : (s.setDie d x).freeCtr = s.freeCtr := rfl
@[simp] theorem State.setDie_issue (s : State) (d : Nat) (x : Die) : (s.setDie d x).issue = s.issue := rfl
@[simp] theorem State.setDie_focus (s : State) (d : Nat) (x : Die) : (s.setDie d x).focus = s.focus := rfl
@[simp] theorem State.setDie_agenda (s : State) (d : Nat) (x : Die) : (s.setDie d x).agenda = s.agenda := rfl
@[simp] theorem State.setDie_hostSent (s : State) (d : Nat) (x : Die) : (s.setDie d x).hostSent = s.hostSent := rfl
@[simp] theorem State.setDie_core (s : State) (d : Nat) (x : Die) (d0 c0 : Nat) : (s.setDie d x).core d0 c0 = s.core d0 c0 := rfl
@[simp] theorem State.setDie_ctx (s : State) (d : Nat) (x : Die) (r0 : CtxRef) : (s.setDie d x).ctx r0 = s.ctx r0 := rfl
@[simp] theorem State.setDie_part (s : State) (d : Nat) (x : Die) (p0 : Nat) : (s.setDie d x).part p0 = s.part p0 := rfl
@[simp] theorem State.setDie_link (s : State) (d : Nat) (x : Die) (l0 : Nat) : (s.setDie d x).link l0 = s.link l0 := rfl
@[simp] theorem State.setDie_indigo (s : State) (d : Nat) (x : Die) (d0 c0 : Nat) : (s.setDie d x).indigo d0 c0 = s.indigo d0 c0 := rfl

/-! ### setCore -/

@[simp] theorem State.setCore_time (s : State) (d c : Nat) (x : Core) : (s.setCore d c x).time = s.time := rfl
@[simp] theorem State.setCore_readyAt (s : State) (d c : Nat) (x : Core) : (s.setCore d c x).readyAt = s.readyAt := rfl
@[simp] theorem State.setCore_powerGood (s : State) (d c : Nat) (x : Core) : (s.setCore d c x).powerGood = s.powerGood := rfl
@[simp] theorem State.setCore_stage (s : State) (d c : Nat) (x : Core) : (s.setCore d c x).stage = s.stage := rfl
@[simp] theorem State.setCore_fwok (s : State) (d c : Nat) (x : Core) : (s.setCore d c x).fwok = s.fwok := rfl
@[simp] theorem State.setCore_failcode (s : State) (d c : Nat) (x : Core) : (s.setCore d c x).failcode = s.failcode := rfl
@[simp] theorem State.setCore_flow (s : State) (d c : Nat) (x : Core) : (s.setCore d c x).flow = s.flow := rfl
@[simp] theorem State.setCore_tout (s : State) (d c : Nat) (x : Core) : (s.setCore d c x).tout = s.tout := rfl
@[simp] theorem State.setCore_tin (s : State) (d c : Nat) (x : Core) : (s.setCore d c x).tin = s.tin := rfl
@[simp] theorem State.setCore_domSize (s : State) (d c : Nat) (x : Core) : (s.setCore d c x).domSize = s.domSize := rfl
@[simp] theorem State.setCore_domModule (s : State) (d c : Nat) (x : Core) : (s.setCore d c x).domModule = s.domModule := rfl
@[simp] theorem State.setCore_gateAt (s : State) (d c : Nat) (x : Core) : (s.setCore d c x).gateAt = s.gateAt := rfl
@[simp] theorem State.setCore_mem (s : State) (d c : Nat) (x : Core) : (s.setCore d c x).mem = s.mem := rfl
@[simp] theorem State.setCore_code (s : State) (d c : Nat) (x : Core) : (s.setCore d c x).code = s.code := rfl
@[simp] theorem State.setCore_poison (s : State) (d c : Nat) (x : Core) : (s.setCore d c x).poison = s.poison := rfl
@[simp] theorem State.setCore_tags (s : State) (d c : Nat) (x : Core) : (s.setCore d c x).tags = s.tags := rfl
@[simp] theorem State.setCore_dir (s : State) (d c : Nat) (x : Core) : (s.setCore d c x).dir = s.dir := rfl
@[simp] theorem State.setCore_dies (s : State) (d c : Nat) (x : Core) : (s.setCore d c x).dies = s.dies := rfl
@[simp] theorem State.setCore_ctxs (s : State) (d c : Nat) (x : Core) : (s.setCore d c x).ctxs = s.ctxs := rfl
@[simp] theorem State.setCore_clusters (s : State) (d c : Nat) (x : Core) : (s.setCore d c x).clusters = s.clusters := rfl
@[simp] theorem State.setCore_links (s : State) (d c : Nat) (x : Core) : (s.setCore d c x).links = s.links := rfl
@[simp] theorem State.setCore_parts (s : State) (d c : Nat) (x : Core) : (s.setCore d c x).parts = s.parts := rfl
@[simp] theorem State.setCore_ports (s : State) (d c : Nat) (x : Core) : (s.setCore d c x).ports = s.ports := rfl
@[simp] theorem State.setCore_accs (s : State) (d c : Nat) (x : Core) : (s.setCore d c x).accs = s.accs := rfl
@[simp] theorem State.setCore_colls (s : State) (d c : Nat) (x : Core) : (s.setCore d c x).colls = s.colls := rfl
@[simp] theorem State.setCore_joins (s : State) (d c : Nat) (x : Core) : (s.setCore d c x).joins = s.joins := rfl
@[simp] theorem State.setCore_responses (s : State) (d c : Nat) (x : Core) : (s.setCore d c x).responses = s.responses := rfl
@[simp] theorem State.setCore_cmds (s : State) (d c : Nat) (x : Core) : (s.setCore d c x).cmds = s.cmds := rfl
@[simp] theorem State.setCore_nextId (s : State) (d c : Nat) (x : Core) : (s.setCore d c x).nextId = s.nextId := rfl
@[simp] theorem State.setCore_freeCtr (s : State) (d c : Nat) (x : Core) : (s.setCore d c x).freeCtr = s.freeCtr := rfl
@[simp] theorem State.setCore_issue (s : State) (d c : Nat) (x : Core) : (s.setCore d c x).issue = s.issue := rfl
@[simp] theorem State.setCore_focus (s : State) (d c : Nat) (x : Core) : (s.setCore d c x).focus = s.focus := rfl
@[simp] theorem State.setCore_agenda (s : State) (d c : Nat) (x : Core) : (s.setCore d c x).agenda = s.agenda := rfl
@[simp] theorem State.setCore_hostSent (s : State) (d c : Nat) (x : Core) : (s.setCore d c x).hostSent = s.hostSent := rfl
@[simp] theorem State.setCore_die (s : State) (d c : Nat) (x : Core) (d0 : Nat) : (s.setCore d c x).die d0 = s.die d0 := rfl
@[simp] theorem State.setCore_ctx (s : State) (d c : Nat) (x : Core) (r0 : CtxRef) : (s.setCore d c x).ctx r0 = s.ctx r0 := rfl
@[simp] theorem State.setCore_part (s : State) (d c : Nat) (x : Core) (p0 : Nat) : (s.setCore d c x).part p0 = s.part p0 := rfl
@[simp] theorem State.setCore_link (s : State) (d c : Nat) (x : Core) (l0 : Nat) : (s.setCore d c x).link l0 = s.link l0 := rfl
@[simp] theorem State.setCore_indigo (s : State) (d c : Nat) (x : Core) (d0 c0 : Nat) : (s.setCore d c x).indigo d0 c0 = s.indigo d0 c0 := rfl
@[simp] theorem State.setCore_ochre (s : State) (d c : Nat) (x : Core) (d0 i0 : Nat) : (s.setCore d c x).ochre d0 i0 = s.ochre d0 i0 := rfl
@[simp] theorem State.setCore_bin (s : State) (d c : Nat) (x : Core) (d0 b0 : Nat) : (s.setCore d c x).bin d0 b0 = s.bin d0 b0 := rfl

/-! ### setCtx -/

@[simp] theorem State.setCtx_time (s : State) (r : CtxRef) (x : Context) : (s.setCtx r x).time = s.time := rfl
@[simp] theorem State.setCtx_readyAt (s : State) (r : CtxRef) (x : Context) : (s.setCtx r x).readyAt = s.readyAt := rfl
@[simp] theorem State.setCtx_powerGood (s : State) (r : CtxRef) (x : Context) : (s.setCtx r x).powerGood = s.powerGood := rfl
@[simp] theorem State.setCtx_stage (s : State) (r : CtxRef) (x : Context) : (s.setCtx r x).stage = s.stage := rfl
@[simp] theorem State.setCtx_fwok (s : State) (r : CtxRef) (x : Context) : (s.setCtx r x).fwok = s.fwok := rfl
@[simp] theorem State.setCtx_failcode (s : State) (r : CtxRef) (x : Context) : (s.setCtx r x).failcode = s.failcode := rfl
@[simp] theorem State.setCtx_flow (s : State) (r : CtxRef) (x : Context) : (s.setCtx r x).flow = s.flow := rfl
@[simp] theorem State.setCtx_tout (s : State) (r : CtxRef) (x : Context) : (s.setCtx r x).tout = s.tout := rfl
@[simp] theorem State.setCtx_tin (s : State) (r : CtxRef) (x : Context) : (s.setCtx r x).tin = s.tin := rfl
@[simp] theorem State.setCtx_domSize (s : State) (r : CtxRef) (x : Context) : (s.setCtx r x).domSize = s.domSize := rfl
@[simp] theorem State.setCtx_domModule (s : State) (r : CtxRef) (x : Context) : (s.setCtx r x).domModule = s.domModule := rfl
@[simp] theorem State.setCtx_gateAt (s : State) (r : CtxRef) (x : Context) : (s.setCtx r x).gateAt = s.gateAt := rfl
@[simp] theorem State.setCtx_mem (s : State) (r : CtxRef) (x : Context) : (s.setCtx r x).mem = s.mem := rfl
@[simp] theorem State.setCtx_code (s : State) (r : CtxRef) (x : Context) : (s.setCtx r x).code = s.code := rfl
@[simp] theorem State.setCtx_poison (s : State) (r : CtxRef) (x : Context) : (s.setCtx r x).poison = s.poison := rfl
@[simp] theorem State.setCtx_tags (s : State) (r : CtxRef) (x : Context) : (s.setCtx r x).tags = s.tags := rfl
@[simp] theorem State.setCtx_dir (s : State) (r : CtxRef) (x : Context) : (s.setCtx r x).dir = s.dir := rfl
@[simp] theorem State.setCtx_dies (s : State) (r : CtxRef) (x : Context) : (s.setCtx r x).dies = s.dies := rfl
@[simp] theorem State.setCtx_cores (s : State) (r : CtxRef) (x : Context) : (s.setCtx r x).cores = s.cores := rfl
@[simp] theorem State.setCtx_clusters (s : State) (r : CtxRef) (x : Context) : (s.setCtx r x).clusters = s.clusters := rfl
@[simp] theorem State.setCtx_links (s : State) (r : CtxRef) (x : Context) : (s.setCtx r x).links = s.links := rfl
@[simp] theorem State.setCtx_parts (s : State) (r : CtxRef) (x : Context) : (s.setCtx r x).parts = s.parts := rfl
@[simp] theorem State.setCtx_ports (s : State) (r : CtxRef) (x : Context) : (s.setCtx r x).ports = s.ports := rfl
@[simp] theorem State.setCtx_accs (s : State) (r : CtxRef) (x : Context) : (s.setCtx r x).accs = s.accs := rfl
@[simp] theorem State.setCtx_colls (s : State) (r : CtxRef) (x : Context) : (s.setCtx r x).colls = s.colls := rfl
@[simp] theorem State.setCtx_joins (s : State) (r : CtxRef) (x : Context) : (s.setCtx r x).joins = s.joins := rfl
@[simp] theorem State.setCtx_responses (s : State) (r : CtxRef) (x : Context) : (s.setCtx r x).responses = s.responses := rfl
@[simp] theorem State.setCtx_cmds (s : State) (r : CtxRef) (x : Context) : (s.setCtx r x).cmds = s.cmds := rfl
@[simp] theorem State.setCtx_nextId (s : State) (r : CtxRef) (x : Context) : (s.setCtx r x).nextId = s.nextId := rfl
@[simp] theorem State.setCtx_freeCtr (s : State) (r : CtxRef) (x : Context) : (s.setCtx r x).freeCtr = s.freeCtr := rfl
@[simp] theorem State.setCtx_issue (s : State) (r : CtxRef) (x : Context) : (s.setCtx r x).issue = s.issue := rfl
@[simp] theorem State.setCtx_focus (s : State) (r : CtxRef) (x : Context) : (s.setCtx r x).focus = s.focus := rfl
@[simp] theorem State.setCtx_agenda (s : State) (r : CtxRef) (x : Context) : (s.setCtx r x).agenda = s.agenda := rfl
@[simp] theorem State.setCtx_hostSent (s : State) (r : CtxRef) (x : Context) : (s.setCtx r x).hostSent = s.hostSent := rfl
@[simp] theorem State.setCtx_die (s : State) (r : CtxRef) (x : Context) (d0 : Nat) : (s.setCtx r x).die d0 = s.die d0 := rfl
@[simp] theorem State.setCtx_core (s : State) (r : CtxRef) (x : Context) (d0 c0 : Nat) : (s.setCtx r x).core d0 c0 = s.core d0 c0 := rfl
@[simp] theorem State.setCtx_part (s : State) (r : CtxRef) (x : Context) (p0 : Nat) : (s.setCtx r x).part p0 = s.part p0 := rfl
@[simp] theorem State.setCtx_link (s : State) (r : CtxRef) (x : Context) (l0 : Nat) : (s.setCtx r x).link l0 = s.link l0 := rfl
@[simp] theorem State.setCtx_indigo (s : State) (r : CtxRef) (x : Context) (d0 c0 : Nat) : (s.setCtx r x).indigo d0 c0 = s.indigo d0 c0 := rfl
@[simp] theorem State.setCtx_ochre (s : State) (r : CtxRef) (x : Context) (d0 i0 : Nat) : (s.setCtx r x).ochre d0 i0 = s.ochre d0 i0 := rfl
@[simp] theorem State.setCtx_bin (s : State) (r : CtxRef) (x : Context) (d0 b0 : Nat) : (s.setCtx r x).bin d0 b0 = s.bin d0 b0 := rfl

/-! ### setPart -/

@[simp] theorem State.setPart_time (s : State) (p : Nat) (x : Partition) : (s.setPart p x).time = s.time := rfl
@[simp] theorem State.setPart_readyAt (s : State) (p : Nat) (x : Partition) : (s.setPart p x).readyAt = s.readyAt := rfl
@[simp] theorem State.setPart_powerGood (s : State) (p : Nat) (x : Partition) : (s.setPart p x).powerGood = s.powerGood := rfl
@[simp] theorem State.setPart_stage (s : State) (p : Nat) (x : Partition) : (s.setPart p x).stage = s.stage := rfl
@[simp] theorem State.setPart_fwok (s : State) (p : Nat) (x : Partition) : (s.setPart p x).fwok = s.fwok := rfl
@[simp] theorem State.setPart_failcode (s : State) (p : Nat) (x : Partition) : (s.setPart p x).failcode = s.failcode := rfl
@[simp] theorem State.setPart_flow (s : State) (p : Nat) (x : Partition) : (s.setPart p x).flow = s.flow := rfl
@[simp] theorem State.setPart_tout (s : State) (p : Nat) (x : Partition) : (s.setPart p x).tout = s.tout := rfl
@[simp] theorem State.setPart_tin (s : State) (p : Nat) (x : Partition) : (s.setPart p x).tin = s.tin := rfl
@[simp] theorem State.setPart_domSize (s : State) (p : Nat) (x : Partition) : (s.setPart p x).domSize = s.domSize := rfl
@[simp] theorem State.setPart_domModule (s : State) (p : Nat) (x : Partition) : (s.setPart p x).domModule = s.domModule := rfl
@[simp] theorem State.setPart_gateAt (s : State) (p : Nat) (x : Partition) : (s.setPart p x).gateAt = s.gateAt := rfl
@[simp] theorem State.setPart_mem (s : State) (p : Nat) (x : Partition) : (s.setPart p x).mem = s.mem := rfl
@[simp] theorem State.setPart_code (s : State) (p : Nat) (x : Partition) : (s.setPart p x).code = s.code := rfl
@[simp] theorem State.setPart_poison (s : State) (p : Nat) (x : Partition) : (s.setPart p x).poison = s.poison := rfl
@[simp] theorem State.setPart_tags (s : State) (p : Nat) (x : Partition) : (s.setPart p x).tags = s.tags := rfl
@[simp] theorem State.setPart_dir (s : State) (p : Nat) (x : Partition) : (s.setPart p x).dir = s.dir := rfl
@[simp] theorem State.setPart_dies (s : State) (p : Nat) (x : Partition) : (s.setPart p x).dies = s.dies := rfl
@[simp] theorem State.setPart_cores (s : State) (p : Nat) (x : Partition) : (s.setPart p x).cores = s.cores := rfl
@[simp] theorem State.setPart_ctxs (s : State) (p : Nat) (x : Partition) : (s.setPart p x).ctxs = s.ctxs := rfl
@[simp] theorem State.setPart_clusters (s : State) (p : Nat) (x : Partition) : (s.setPart p x).clusters = s.clusters := rfl
@[simp] theorem State.setPart_links (s : State) (p : Nat) (x : Partition) : (s.setPart p x).links = s.links := rfl
@[simp] theorem State.setPart_ports (s : State) (p : Nat) (x : Partition) : (s.setPart p x).ports = s.ports := rfl
@[simp] theorem State.setPart_accs (s : State) (p : Nat) (x : Partition) : (s.setPart p x).accs = s.accs := rfl
@[simp] theorem State.setPart_colls (s : State) (p : Nat) (x : Partition) : (s.setPart p x).colls = s.colls := rfl
@[simp] theorem State.setPart_joins (s : State) (p : Nat) (x : Partition) : (s.setPart p x).joins = s.joins := rfl
@[simp] theorem State.setPart_responses (s : State) (p : Nat) (x : Partition) : (s.setPart p x).responses = s.responses := rfl
@[simp] theorem State.setPart_cmds (s : State) (p : Nat) (x : Partition) : (s.setPart p x).cmds = s.cmds := rfl
@[simp] theorem State.setPart_nextId (s : State) (p : Nat) (x : Partition) : (s.setPart p x).nextId = s.nextId := rfl
@[simp] theorem State.setPart_freeCtr (s : State) (p : Nat) (x : Partition) : (s.setPart p x).freeCtr = s.freeCtr := rfl
@[simp] theorem State.setPart_issue (s : State) (p : Nat) (x : Partition) : (s.setPart p x).issue = s.issue := rfl
@[simp] theorem State.setPart_focus (s : State) (p : Nat) (x : Partition) : (s.setPart p x).focus = s.focus := rfl
@[simp] theorem State.setPart_agenda (s : State) (p : Nat) (x : Partition) : (s.setPart p x).agenda = s.agenda := rfl
@[simp] theorem State.setPart_hostSent (s : State) (p : Nat) (x : Partition) : (s.setPart p x).hostSent = s.hostSent := rfl
@[simp] theorem State.setPart_die (s : State) (p : Nat) (x : Partition) (d0 : Nat) : (s.setPart p x).die d0 = s.die d0 := rfl
@[simp] theorem State.setPart_core (s : State) (p : Nat) (x : Partition) (d0 c0 : Nat) : (s.setPart p x).core d0 c0 = s.core d0 c0 := rfl
@[simp] theorem State.setPart_ctx (s : State) (p : Nat) (x : Partition) (r0 : CtxRef) : (s.setPart p x).ctx r0 = s.ctx r0 := rfl
@[simp] theorem State.setPart_link (s : State) (p : Nat) (x : Partition) (l0 : Nat) : (s.setPart p x).link l0 = s.link l0 := rfl
@[simp] theorem State.setPart_indigo (s : State) (p : Nat) (x : Partition) (d0 c0 : Nat) : (s.setPart p x).indigo d0 c0 = s.indigo d0 c0 := rfl
@[simp] theorem State.setPart_ochre (s : State) (p : Nat) (x : Partition) (d0 i0 : Nat) : (s.setPart p x).ochre d0 i0 = s.ochre d0 i0 := rfl
@[simp] theorem State.setPart_bin (s : State) (p : Nat) (x : Partition) (d0 b0 : Nat) : (s.setPart p x).bin d0 b0 = s.bin d0 b0 := rfl

/-! ### setLink -/

@[simp] theorem State.setLink_time (s : State) (l : Nat) (x : Link) : (s.setLink l x).time = s.time := rfl
@[simp] theorem State.setLink_readyAt (s : State) (l : Nat) (x : Link) : (s.setLink l x).readyAt = s.readyAt := rfl
@[simp] theorem State.setLink_powerGood (s : State) (l : Nat) (x : Link) : (s.setLink l x).powerGood = s.powerGood := rfl
@[simp] theorem State.setLink_stage (s : State) (l : Nat) (x : Link) : (s.setLink l x).stage = s.stage := rfl
@[simp] theorem State.setLink_fwok (s : State) (l : Nat) (x : Link) : (s.setLink l x).fwok = s.fwok := rfl
@[simp] theorem State.setLink_failcode (s : State) (l : Nat) (x : Link) : (s.setLink l x).failcode = s.failcode := rfl
@[simp] theorem State.setLink_flow (s : State) (l : Nat) (x : Link) : (s.setLink l x).flow = s.flow := rfl
@[simp] theorem State.setLink_tout (s : State) (l : Nat) (x : Link) : (s.setLink l x).tout = s.tout := rfl
@[simp] theorem State.setLink_tin (s : State) (l : Nat) (x : Link) : (s.setLink l x).tin = s.tin := rfl
@[simp] theorem State.setLink_domSize (s : State) (l : Nat) (x : Link) : (s.setLink l x).domSize = s.domSize := rfl
@[simp] theorem State.setLink_domModule (s : State) (l : Nat) (x : Link) : (s.setLink l x).domModule = s.domModule := rfl
@[simp] theorem State.setLink_gateAt (s : State) (l : Nat) (x : Link) : (s.setLink l x).gateAt = s.gateAt := rfl
@[simp] theorem State.setLink_mem (s : State) (l : Nat) (x : Link) : (s.setLink l x).mem = s.mem := rfl
@[simp] theorem State.setLink_code (s : State) (l : Nat) (x : Link) : (s.setLink l x).code = s.code := rfl
@[simp] theorem State.setLink_poison (s : State) (l : Nat) (x : Link) : (s.setLink l x).poison = s.poison := rfl
@[simp] theorem State.setLink_tags (s : State) (l : Nat) (x : Link) : (s.setLink l x).tags = s.tags := rfl
@[simp] theorem State.setLink_dir (s : State) (l : Nat) (x : Link) : (s.setLink l x).dir = s.dir := rfl
@[simp] theorem State.setLink_dies (s : State) (l : Nat) (x : Link) : (s.setLink l x).dies = s.dies := rfl
@[simp] theorem State.setLink_cores (s : State) (l : Nat) (x : Link) : (s.setLink l x).cores = s.cores := rfl
@[simp] theorem State.setLink_ctxs (s : State) (l : Nat) (x : Link) : (s.setLink l x).ctxs = s.ctxs := rfl
@[simp] theorem State.setLink_clusters (s : State) (l : Nat) (x : Link) : (s.setLink l x).clusters = s.clusters := rfl
@[simp] theorem State.setLink_parts (s : State) (l : Nat) (x : Link) : (s.setLink l x).parts = s.parts := rfl
@[simp] theorem State.setLink_ports (s : State) (l : Nat) (x : Link) : (s.setLink l x).ports = s.ports := rfl
@[simp] theorem State.setLink_accs (s : State) (l : Nat) (x : Link) : (s.setLink l x).accs = s.accs := rfl
@[simp] theorem State.setLink_colls (s : State) (l : Nat) (x : Link) : (s.setLink l x).colls = s.colls := rfl
@[simp] theorem State.setLink_joins (s : State) (l : Nat) (x : Link) : (s.setLink l x).joins = s.joins := rfl
@[simp] theorem State.setLink_responses (s : State) (l : Nat) (x : Link) : (s.setLink l x).responses = s.responses := rfl
@[simp] theorem State.setLink_cmds (s : State) (l : Nat) (x : Link) : (s.setLink l x).cmds = s.cmds := rfl
@[simp] theorem State.setLink_nextId (s : State) (l : Nat) (x : Link) : (s.setLink l x).nextId = s.nextId := rfl
@[simp] theorem State.setLink_freeCtr (s : State) (l : Nat) (x : Link) : (s.setLink l x).freeCtr = s.freeCtr := rfl
@[simp] theorem State.setLink_issue (s : State) (l : Nat) (x : Link) : (s.setLink l x).issue = s.issue := rfl
@[simp] theorem State.setLink_focus (s : State) (l : Nat) (x : Link) : (s.setLink l x).focus = s.focus := rfl
@[simp] theorem State.setLink_agenda (s : State) (l : Nat) (x : Link) : (s.setLink l x).agenda = s.agenda := rfl
@[simp] theorem State.setLink_hostSent (s : State) (l : Nat) (x : Link) : (s.setLink l x).hostSent = s.hostSent := rfl
@[simp] theorem State.setLink_die (s : State) (l : Nat) (x : Link) (d0 : Nat) : (s.setLink l x).die d0 = s.die d0 := rfl
@[simp] theorem State.setLink_core (s : State) (l : Nat) (x : Link) (d0 c0 : Nat) : (s.setLink l x).core d0 c0 = s.core d0 c0 := rfl
@[simp] theorem State.setLink_ctx (s : State) (l : Nat) (x : Link) (r0 : CtxRef) : (s.setLink l x).ctx r0 = s.ctx r0 := rfl
@[simp] theorem State.setLink_part (s : State) (l : Nat) (x : Link) (p0 : Nat) : (s.setLink l x).part p0 = s.part p0 := rfl
@[simp] theorem State.setLink_indigo (s : State) (l : Nat) (x : Link) (d0 c0 : Nat) : (s.setLink l x).indigo d0 c0 = s.indigo d0 c0 := rfl
@[simp] theorem State.setLink_ochre (s : State) (l : Nat) (x : Link) (d0 i0 : Nat) : (s.setLink l x).ochre d0 i0 = s.ochre d0 i0 := rfl
@[simp] theorem State.setLink_bin (s : State) (l : Nat) (x : Link) (d0 b0 : Nat) : (s.setLink l x).bin d0 b0 = s.bin d0 b0 := rfl

/-! ### setIndigo -/

@[simp] theorem State.setIndigo_time (s : State) (d c : Nat) (x : Indigo) : (s.setIndigo d c x).time = s.time := rfl
@[simp] theorem State.setIndigo_readyAt (s : State) (d c : Nat) (x : Indigo) : (s.setIndigo d c x).readyAt = s.readyAt := rfl
@[simp] theorem State.setIndigo_powerGood (s : State) (d c : Nat) (x : Indigo) : (s.setIndigo d c x).powerGood = s.powerGood := rfl
@[simp] theorem State.setIndigo_stage (s : State) (d c : Nat) (x : Indigo) : (s.setIndigo d c x).stage = s.stage := rfl
@[simp] theorem State.setIndigo_fwok (s : State) (d c : Nat) (x : Indigo) : (s.setIndigo d c x).fwok = s.fwok := rfl
@[simp] theorem State.setIndigo_failcode (s : State) (d c : Nat) (x : Indigo) : (s.setIndigo d c x).failcode = s.failcode := rfl
@[simp] theorem State.setIndigo_flow (s : State) (d c : Nat) (x : Indigo) : (s.setIndigo d c x).flow = s.flow := rfl
@[simp] theorem State.setIndigo_tout (s : State) (d c : Nat) (x : Indigo) : (s.setIndigo d c x).tout = s.tout := rfl
@[simp] theorem State.setIndigo_tin (s : State) (d c : Nat) (x : Indigo) : (s.setIndigo d c x).tin = s.tin := rfl
@[simp] theorem State.setIndigo_domSize (s : State) (d c : Nat) (x : Indigo) : (s.setIndigo d c x).domSize = s.domSize := rfl
@[simp] theorem State.setIndigo_domModule (s : State) (d c : Nat) (x : Indigo) : (s.setIndigo d c x).domModule = s.domModule := rfl
@[simp] theorem State.setIndigo_gateAt (s : State) (d c : Nat) (x : Indigo) : (s.setIndigo d c x).gateAt = s.gateAt := rfl
@[simp] theorem State.setIndigo_mem (s : State) (d c : Nat) (x : Indigo) : (s.setIndigo d c x).mem = s.mem := rfl
@[simp] theorem State.setIndigo_code (s : State) (d c : Nat) (x : Indigo) : (s.setIndigo d c x).code = s.code := rfl
@[simp] theorem State.setIndigo_poison (s : State) (d c : Nat) (x : Indigo) : (s.setIndigo d c x).poison = s.poison := rfl
@[simp] theorem State.setIndigo_tags (s : State) (d c : Nat) (x : Indigo) : (s.setIndigo d c x).tags = s.tags := rfl
@[simp] theorem State.setIndigo_dir (s : State) (d c : Nat) (x : Indigo) : (s.setIndigo d c x).dir = s.dir := rfl
@[simp] theorem State.setIndigo_dies (s : State) (d c : Nat) (x : Indigo) : (s.setIndigo d c x).dies = s.dies := rfl
@[simp] theorem State.setIndigo_cores (s : State) (d c : Nat) (x : Indigo) : (s.setIndigo d c x).cores = s.cores := rfl
@[simp] theorem State.setIndigo_ctxs (s : State) (d c : Nat) (x : Indigo) : (s.setIndigo d c x).ctxs = s.ctxs := rfl
@[simp] theorem State.setIndigo_links (s : State) (d c : Nat) (x : Indigo) : (s.setIndigo d c x).links = s.links := rfl
@[simp] theorem State.setIndigo_parts (s : State) (d c : Nat) (x : Indigo) : (s.setIndigo d c x).parts = s.parts := rfl
@[simp] theorem State.setIndigo_ports (s : State) (d c : Nat) (x : Indigo) : (s.setIndigo d c x).ports = s.ports := rfl
@[simp] theorem State.setIndigo_accs (s : State) (d c : Nat) (x : Indigo) : (s.setIndigo d c x).accs = s.accs := rfl
@[simp] theorem State.setIndigo_colls (s : State) (d c : Nat) (x : Indigo) : (s.setIndigo d c x).colls = s.colls := rfl
@[simp] theorem State.setIndigo_joins (s : State) (d c : Nat) (x : Indigo) : (s.setIndigo d c x).joins = s.joins := rfl
@[simp] theorem State.setIndigo_responses (s : State) (d c : Nat) (x : Indigo) : (s.setIndigo d c x).responses = s.responses := rfl
@[simp] theorem State.setIndigo_cmds (s : State) (d c : Nat) (x : Indigo) : (s.setIndigo d c x).cmds = s.cmds := rfl
@[simp] theorem State.setIndigo_nextId (s : State) (d c : Nat) (x : Indigo) : (s.setIndigo d c x).nextId = s.nextId := rfl
@[simp] theorem State.setIndigo_freeCtr (s : State) (d c : Nat) (x : Indigo) : (s.setIndigo d c x).freeCtr = s.freeCtr := rfl
@[simp] theorem State.setIndigo_issue (s : State) (d c : Nat) (x : Indigo) : (s.setIndigo d c x).issue = s.issue := rfl
@[simp] theorem State.setIndigo_focus (s : State) (d c : Nat) (x : Indigo) : (s.setIndigo d c x).focus = s.focus := rfl
@[simp] theorem State.setIndigo_agenda (s : State) (d c : Nat) (x : Indigo) : (s.setIndigo d c x).agenda = s.agenda := rfl
@[simp] theorem State.setIndigo_hostSent (s : State) (d c : Nat) (x : Indigo) : (s.setIndigo d c x).hostSent = s.hostSent := rfl
@[simp] theorem State.setIndigo_die (s : State) (d c : Nat) (x : Indigo) (d0 : Nat) : (s.setIndigo d c x).die d0 = s.die d0 := rfl
@[simp] theorem State.setIndigo_core (s : State) (d c : Nat) (x : Indigo) (d0 c0 : Nat) : (s.setIndigo d c x).core d0 c0 = s.core d0 c0 := rfl
@[simp] theorem State.setIndigo_ctx (s : State) (d c : Nat) (x : Indigo) (r0 : CtxRef) : (s.setIndigo d c x).ctx r0 = s.ctx r0 := rfl
@[simp] theorem State.setIndigo_part (s : State) (d c : Nat) (x : Indigo) (p0 : Nat) : (s.setIndigo d c x).part p0 = s.part p0 := rfl
@[simp] theorem State.setIndigo_link (s : State) (d c : Nat) (x : Indigo) (l0 : Nat) : (s.setIndigo d c x).link l0 = s.link l0 := rfl
@[simp] theorem State.setIndigo_ochre (s : State) (d c : Nat) (x : Indigo) (d0 i0 : Nat) : (s.setIndigo d c x).ochre d0 i0 = s.ochre d0 i0 := rfl
@[simp] theorem State.setIndigo_bin (s : State) (d c : Nat) (x : Indigo) (d0 b0 : Nat) : (s.setIndigo d c x).bin d0 b0 = s.bin d0 b0 := rfl

/-! ### setOchre -/

@[simp] theorem State.setOchre_time (s : State) (d i : Nat) (x : Ochre) : (s.setOchre d i x).time = s.time := rfl
@[simp] theorem State.setOchre_readyAt (s : State) (d i : Nat) (x : Ochre) : (s.setOchre d i x).readyAt = s.readyAt := rfl
@[simp] theorem State.setOchre_powerGood (s : State) (d i : Nat) (x : Ochre) : (s.setOchre d i x).powerGood = s.powerGood := rfl
@[simp] theorem State.setOchre_stage (s : State) (d i : Nat) (x : Ochre) : (s.setOchre d i x).stage = s.stage := rfl
@[simp] theorem State.setOchre_fwok (s : State) (d i : Nat) (x : Ochre) : (s.setOchre d i x).fwok = s.fwok := rfl
@[simp] theorem State.setOchre_failcode (s : State) (d i : Nat) (x : Ochre) : (s.setOchre d i x).failcode = s.failcode := rfl
@[simp] theorem State.setOchre_flow (s : State) (d i : Nat) (x : Ochre) : (s.setOchre d i x).flow = s.flow := rfl
@[simp] theorem State.setOchre_tout (s : State) (d i : Nat) (x : Ochre) : (s.setOchre d i x).tout = s.tout := rfl
@[simp] theorem State.setOchre_tin (s : State) (d i : Nat) (x : Ochre) : (s.setOchre d i x).tin = s.tin := rfl
@[simp] theorem State.setOchre_domSize (s : State) (d i : Nat) (x : Ochre) : (s.setOchre d i x).domSize = s.domSize := rfl
@[simp] theorem State.setOchre_domModule (s : State) (d i : Nat) (x : Ochre) : (s.setOchre d i x).domModule = s.domModule := rfl
@[simp] theorem State.setOchre_gateAt (s : State) (d i : Nat) (x : Ochre) : (s.setOchre d i x).gateAt = s.gateAt := rfl
@[simp] theorem State.setOchre_mem (s : State) (d i : Nat) (x : Ochre) : (s.setOchre d i x).mem = s.mem := rfl
@[simp] theorem State.setOchre_code (s : State) (d i : Nat) (x : Ochre) : (s.setOchre d i x).code = s.code := rfl
@[simp] theorem State.setOchre_poison (s : State) (d i : Nat) (x : Ochre) : (s.setOchre d i x).poison = s.poison := rfl
@[simp] theorem State.setOchre_tags (s : State) (d i : Nat) (x : Ochre) : (s.setOchre d i x).tags = s.tags := rfl
@[simp] theorem State.setOchre_dir (s : State) (d i : Nat) (x : Ochre) : (s.setOchre d i x).dir = s.dir := rfl
@[simp] theorem State.setOchre_cores (s : State) (d i : Nat) (x : Ochre) : (s.setOchre d i x).cores = s.cores := rfl
@[simp] theorem State.setOchre_ctxs (s : State) (d i : Nat) (x : Ochre) : (s.setOchre d i x).ctxs = s.ctxs := rfl
@[simp] theorem State.setOchre_clusters (s : State) (d i : Nat) (x : Ochre) : (s.setOchre d i x).clusters = s.clusters := rfl
@[simp] theorem State.setOchre_links (s : State) (d i : Nat) (x : Ochre) : (s.setOchre d i x).links = s.links := rfl
@[simp] theorem State.setOchre_parts (s : State) (d i : Nat) (x : Ochre) : (s.setOchre d i x).parts = s.parts := rfl
@[simp] theorem State.setOchre_ports (s : State) (d i : Nat) (x : Ochre) : (s.setOchre d i x).ports = s.ports := rfl
@[simp] theorem State.setOchre_accs (s : State) (d i : Nat) (x : Ochre) : (s.setOchre d i x).accs = s.accs := rfl
@[simp] theorem State.setOchre_colls (s : State) (d i : Nat) (x : Ochre) : (s.setOchre d i x).colls = s.colls := rfl
@[simp] theorem State.setOchre_joins (s : State) (d i : Nat) (x : Ochre) : (s.setOchre d i x).joins = s.joins := rfl
@[simp] theorem State.setOchre_responses (s : State) (d i : Nat) (x : Ochre) : (s.setOchre d i x).responses = s.responses := rfl
@[simp] theorem State.setOchre_cmds (s : State) (d i : Nat) (x : Ochre) : (s.setOchre d i x).cmds = s.cmds := rfl
@[simp] theorem State.setOchre_nextId (s : State) (d i : Nat) (x : Ochre) : (s.setOchre d i x).nextId = s.nextId := rfl
@[simp] theorem State.setOchre_freeCtr (s : State) (d i : Nat) (x : Ochre) : (s.setOchre d i x).freeCtr = s.freeCtr := rfl
@[simp] theorem State.setOchre_issue (s : State) (d i : Nat) (x : Ochre) : (s.setOchre d i x).issue = s.issue := rfl
@[simp] theorem State.setOchre_focus (s : State) (d i : Nat) (x : Ochre) : (s.setOchre d i x).focus = s.focus := rfl
@[simp] theorem State.setOchre_agenda (s : State) (d i : Nat) (x : Ochre) : (s.setOchre d i x).agenda = s.agenda := rfl
@[simp] theorem State.setOchre_hostSent (s : State) (d i : Nat) (x : Ochre) : (s.setOchre d i x).hostSent = s.hostSent := rfl
@[simp] theorem State.setOchre_core (s : State) (d i : Nat) (x : Ochre) (d0 c0 : Nat) : (s.setOchre d i x).core d0 c0 = s.core d0 c0 := rfl
@[simp] theorem State.setOchre_ctx (s : State) (d i : Nat) (x : Ochre) (r0 : CtxRef) : (s.setOchre d i x).ctx r0 = s.ctx r0 := rfl
@[simp] theorem State.setOchre_part (s : State) (d i : Nat) (x : Ochre) (p0 : Nat) : (s.setOchre d i x).part p0 = s.part p0 := rfl
@[simp] theorem State.setOchre_link (s : State) (d i : Nat) (x : Ochre) (l0 : Nat) : (s.setOchre d i x).link l0 = s.link l0 := rfl
@[simp] theorem State.setOchre_indigo (s : State) (d i : Nat) (x : Ochre) (d0 c0 : Nat) : (s.setOchre d i x).indigo d0 c0 = s.indigo d0 c0 := rfl

/-! ### setBin -/

@[simp] theorem State.setBin_time (s : State) (d b : Nat) (x : Bin) : (s.setBin d b x).time = s.time := rfl
@[simp] theorem State.setBin_readyAt (s : State) (d b : Nat) (x : Bin) : (s.setBin d b x).readyAt = s.readyAt := rfl
@[simp] theorem State.setBin_powerGood (s : State) (d b : Nat) (x : Bin) : (s.setBin d b x).powerGood = s.powerGood := rfl
@[simp] theorem State.setBin_stage (s : State) (d b : Nat) (x : Bin) : (s.setBin d b x).stage = s.stage := rfl
@[simp] theorem State.setBin_fwok (s : State) (d b : Nat) (x : Bin) : (s.setBin d b x).fwok = s.fwok := rfl
@[simp] theorem State.setBin_failcode (s : State) (d b : Nat) (x : Bin) : (s.setBin d b x).failcode = s.failcode := rfl
@[simp] theorem State.setBin_flow (s : State) (d b : Nat) (x : Bin) : (s.setBin d b x).flow = s.flow := rfl
@[simp] theorem State.setBin_tout (s : State) (d b : Nat) (x : Bin) : (s.setBin d b x).tout = s.tout := rfl
@[simp] theorem State.setBin_tin (s : State) (d b : Nat) (x : Bin) : (s.setBin d b x).tin = s.tin := rfl
@[simp] theorem State.setBin_domSize (s : State) (d b : Nat) (x : Bin) : (s.setBin d b x).domSize = s.domSize := rfl
@[simp] theorem State.setBin_domModule (s : State) (d b : Nat) (x : Bin) : (s.setBin d b x).domModule = s.domModule := rfl
@[simp] theorem State.setBin_gateAt (s : State) (d b : Nat) (x : Bin) : (s.setBin d b x).gateAt = s.gateAt := rfl
@[simp] theorem State.setBin_mem (s : State) (d b : Nat) (x : Bin) : (s.setBin d b x).mem = s.mem := rfl
@[simp] theorem State.setBin_code (s : State) (d b : Nat) (x : Bin) : (s.setBin d b x).code = s.code := rfl
@[simp] theorem State.setBin_poison (s : State) (d b : Nat) (x : Bin) : (s.setBin d b x).poison = s.poison := rfl
@[simp] theorem State.setBin_tags (s : State) (d b : Nat) (x : Bin) : (s.setBin d b x).tags = s.tags := rfl
@[simp] theorem State.setBin_dir (s : State) (d b : Nat) (x : Bin) : (s.setBin d b x).dir = s.dir := rfl
@[simp] theorem State.setBin_cores (s : State) (d b : Nat) (x : Bin) : (s.setBin d b x).cores = s.cores := rfl
@[simp] theorem State.setBin_ctxs (s : State) (d b : Nat) (x : Bin) : (s.setBin d b x).ctxs = s.ctxs := rfl
@[simp] theorem State.setBin_clusters (s : State) (d b : Nat) (x : Bin) : (s.setBin d b x).clusters = s.clusters := rfl
@[simp] theorem State.setBin_links (s : State) (d b : Nat) (x : Bin) : (s.setBin d b x).links = s.links := rfl
@[simp] theorem State.setBin_parts (s : State) (d b : Nat) (x : Bin) : (s.setBin d b x).parts = s.parts := rfl
@[simp] theorem State.setBin_ports (s : State) (d b : Nat) (x : Bin) : (s.setBin d b x).ports = s.ports := rfl
@[simp] theorem State.setBin_accs (s : State) (d b : Nat) (x : Bin) : (s.setBin d b x).accs = s.accs := rfl
@[simp] theorem State.setBin_colls (s : State) (d b : Nat) (x : Bin) : (s.setBin d b x).colls = s.colls := rfl
@[simp] theorem State.setBin_joins (s : State) (d b : Nat) (x : Bin) : (s.setBin d b x).joins = s.joins := rfl
@[simp] theorem State.setBin_responses (s : State) (d b : Nat) (x : Bin) : (s.setBin d b x).responses = s.responses := rfl
@[simp] theorem State.setBin_cmds (s : State) (d b : Nat) (x : Bin) : (s.setBin d b x).cmds = s.cmds := rfl
@[simp] theorem State.setBin_nextId (s : State) (d b : Nat) (x : Bin) : (s.setBin d b x).nextId = s.nextId := rfl
@[simp] theorem State.setBin_freeCtr (s : State) (d b : Nat) (x : Bin) : (s.setBin d b x).freeCtr = s.freeCtr := rfl
@[simp] theorem State.setBin_issue (s : State) (d b : Nat) (x : Bin) : (s.setBin d b x).issue = s.issue := rfl
@[simp] theorem State.setBin_focus (s : State) (d b : Nat) (x : Bin) : (s.setBin d b x).focus = s.focus := rfl
@[simp] theorem State.setBin_agenda (s : State) (d b : Nat) (x : Bin) : (s.setBin d b x).agenda = s.agenda := rfl
@[simp] theorem State.setBin_hostSent (s : State) (d b : Nat) (x : Bin) : (s.setBin d b x).hostSent = s.hostSent := rfl
@[simp] theorem State.setBin_core (s : State) (d b : Nat) (x : Bin) (d0 c0 : Nat) : (s.setBin d b x).core d0 c0 = s.core d0 c0 := rfl
@[simp] theorem State.setBin_ctx (s : State) (d b : Nat) (x : Bin) (r0 : CtxRef) : (s.setBin d b x).ctx r0 = s.ctx r0 := rfl
@[simp] theorem State.setBin_part (s : State) (d b : Nat) (x : Bin) (p0 : Nat) : (s.setBin d b x).part p0 = s.part p0 := rfl
@[simp] theorem State.setBin_link (s : State) (d b : Nat) (x : Bin) (l0 : Nat) : (s.setBin d b x).link l0 = s.link l0 := rfl
@[simp] theorem State.setBin_indigo (s : State) (d b : Nat) (x : Bin) (d0 c0 : Nat) : (s.setBin d b x).indigo d0 c0 = s.indigo d0 c0 := rfl

/-! ### What is read back -/

theorem coreKey_inj {d c d' c' : Nat} (h : c < 48) (h' : c' < 48) (e : coreKey d c = coreKey d' c') :
    d = d' ∧ c = c' := by unfold coreKey at e; omega

theorem ctxKey_inj {d c x d' c' x' : Nat} (hc : c < 48) (hc' : c' < 48) (hx : x < 8) (hx' : x' < 8)
    (e : ctxKey d c x = ctxKey d' c' x') : d = d' ∧ c = c' ∧ x = x' := by unfold ctxKey at e; omega

theorem CtxRef.ok_lt {r : CtxRef} (h : r.ok = true) : r.die < 24 ∧ r.core < 48 ∧ r.ctx < 8 := by
  simp only [CtxRef.ok, Bool.and_eq_true, decide_eq_true_eq] at h
  exact ⟨h.1.1, h.1.2, h.2⟩

@[simp] theorem State.setDie_die_self (s : State) (d : Nat) (x : Die) : (s.setDie d x).die d = x := by
  simp [State.setDie, State.die]

theorem State.setDie_die (s : State) (d d' : Nat) (x : Die) :
    (s.setDie d x).die d' = if d = d' then x else s.die d' := by
  simp [State.setDie, State.die, ngetD_nset]

@[simp] theorem State.setCore_core_self (s : State) (d c : Nat) (x : Core) : (s.setCore d c x).core d c = x := by
  simp [State.setCore, State.core]

theorem State.setCore_core (s : State) {d c d' c' : Nat} (x : Core) (h : c < 48) (h' : c' < 48)
    (hne : (d, c) ≠ (d', c')) : (s.setCore d c x).core d' c' = s.core d' c' := by
  refine ngetD_nset_other _ _ _ fun e => hne ?_
  obtain ⟨rfl, rfl⟩ := coreKey_inj h h' e
  rfl

@[simp] theorem State.setCtx_ctx_self (s : State) (r : CtxRef) (x : Context) : (s.setCtx r x).ctx r = x := by
  simp [State.setCtx, State.ctx]

theorem State.setCtx_ctx (s : State) {r r' : CtxRef} (x : Context) (h : r.ok = true) (h' : r'.ok = true) (hne : r ≠ r') :
    (s.setCtx r x).ctx r' = s.ctx r' := by
  have a := CtxRef.ok_lt h
  have b := CtxRef.ok_lt h'
  refine ngetD_nset_other _ _ _ fun e => hne ?_
  obtain ⟨h1, h2, h3⟩ := ctxKey_inj a.2.1 b.2.1 a.2.2 b.2.2 e
  cases r; cases r'; simp_all

@[simp] theorem State.setPart_part_self (s : State) (p : Nat) (x : Partition) : (s.setPart p x).part p = x := by
  simp [State.setPart, State.part]

theorem State.setPart_part (s : State) (p p' : Nat) (x : Partition) :
    (s.setPart p x).part p' = if p = p' then x else s.part p' := by
  simp [State.setPart, State.part, ngetD_nset]

@[simp] theorem State.setLink_link_self (s : State) (l : Nat) (x : Link) : (s.setLink l x).link l = x := by
  simp [State.setLink, State.link]

theorem State.setLink_link (s : State) (l l' : Nat) (x : Link) :
    (s.setLink l x).link l' = if l = l' then x else s.link l' := by
  simp [State.setLink, State.link, ngetD_nset]

@[simp] theorem State.setOchre_ochre_self (s : State) (d i : Nat) (x : Ochre) : (s.setOchre d i x).ochre d i = x := by
  simp [State.setOchre, State.ochre]

@[simp] theorem State.setBin_bin_self (s : State) (d b : Nat) (x : Bin) : (s.setBin d b x).bin d b = x := by
  simp [State.setBin, State.bin]

end Sys2Proof.Machine
end

