-- ==== Sys2Proof/Laws/Ops.lean ====
section
/-!
SUPPORT. What each shared operation does, said once: scalar registers, threads, jumps, flags, a home's write and the
entry of a trap.
-/
namespace Sys2Proof.Machine

/-! ### Registers of a thread (R110) -/

/-- A register read after a write: s0 reads as zero and takes no write. -/
theorem Thread.setReg_reg (t : Thread) (n m : Nat) (v : Word) :
    (t.setReg n v).reg m = if n = m ∧ n ≠ 0 then v else t.reg m := by
  by_cases h : n = 0
  · simp [Thread.setReg, h]
  · by_cases hm : m = 0
    · simp [Thread.reg, h, hm]
    · by_cases hn : n = m
      · subst hn; simp [Thread.setReg, Thread.reg, h]
      · simp [Thread.setReg, Thread.reg, h, hm, hn, ngetD_nset]

/-- A write of a register leaves the rest of the thread. -/
theorem Thread.setReg_rest (t : Thread) (n : Nat) (v : Word) :
    { t.setReg n v with regs := t.regs } = t := by
  by_cases h : n = 0 <;> simp [Thread.setReg, h]

/-! ### The thread of a part -/

@[simp] theorem State.setThread_time (s : State) (p : PartRef) (t : Thread) : (s.setThread p t).time = s.time := by
  unfold State.setThread; repeat' split
  all_goals rfl
@[simp] theorem State.setThread_readyAt (s : State) (p : PartRef) (t : Thread) : (s.setThread p t).readyAt = s.readyAt := by
  unfold State.setThread; repeat' split
  all_goals rfl
@[simp] theorem State.setThread_mem (s : State) (p : PartRef) (t : Thread) : (s.setThread p t).mem = s.mem := by
  unfold State.setThread; repeat' split
  all_goals rfl
@[simp] theorem State.setThread_code (s : State) (p : PartRef) (t : Thread) : (s.setThread p t).code = s.code := by
  unfold State.setThread; repeat' split
  all_goals rfl
@[simp] theorem State.setThread_poison (s : State) (p : PartRef) (t : Thread) : (s.setThread p t).poison = s.poison := by
  unfold State.setThread; repeat' split
  all_goals rfl
@[simp] theorem State.setThread_tags (s : State) (p : PartRef) (t : Thread) : (s.setThread p t).tags = s.tags := by
  unfold State.setThread; repeat' split
  all_goals rfl
@[simp] theorem State.setThread_dir (s : State) (p : PartRef) (t : Thread) : (s.setThread p t).dir = s.dir := by
  unfold State.setThread; repeat' split
  all_goals rfl
@[simp] theorem State.setThread_cores (s : State) (p : PartRef) (t : Thread) : (s.setThread p t).cores = s.cores := by
  unfold State.setThread; repeat' split
  all_goals rfl
@[simp] theorem State.setThread_clusters (s : State) (p : PartRef) (t : Thread) : (s.setThread p t).clusters = s.clusters := by
  unfold State.setThread; repeat' split
  all_goals rfl
@[simp] theorem State.setThread_links (s : State) (p : PartRef) (t : Thread) : (s.setThread p t).links = s.links := by
  unfold State.setThread; repeat' split
  all_goals rfl
@[simp] theorem State.setThread_parts (s : State) (p : PartRef) (t : Thread) : (s.setThread p t).parts = s.parts := by
  unfold State.setThread; repeat' split
  all_goals rfl
@[simp] theorem State.setThread_ports (s : State) (p : PartRef) (t : Thread) : (s.setThread p t).ports = s.ports := by
  unfold State.setThread; repeat' split
  all_goals rfl
@[simp] theorem State.setThread_accs (s : State) (p : PartRef) (t : Thread) : (s.setThread p t).accs = s.accs := by
  unfold State.setThread; repeat' split
  all_goals rfl
@[simp] theorem State.setThread_colls (s : State) (p : PartRef) (t : Thread) : (s.setThread p t).colls = s.colls := by
  unfold State.setThread; repeat' split
  all_goals rfl
@[simp] theorem State.setThread_cmds (s : State) (p : PartRef) (t : Thread) : (s.setThread p t).cmds = s.cmds := by
  unfold State.setThread; repeat' split
  all_goals rfl
@[simp] theorem State.setThread_nextId (s : State) (p : PartRef) (t : Thread) : (s.setThread p t).nextId = s.nextId := by
  unfold State.setThread; repeat' split
  all_goals rfl
@[simp] theorem State.setThread_freeCtr (s : State) (p : PartRef) (t : Thread) : (s.setThread p t).freeCtr = s.freeCtr := by
  unfold State.setThread; repeat' split
  all_goals rfl
@[simp] theorem State.setThread_issue (s : State) (p : PartRef) (t : Thread) : (s.setThread p t).issue = s.issue := by
  unfold State.setThread; repeat' split
  all_goals rfl
@[simp] theorem State.setThread_focus (s : State) (p : PartRef) (t : Thread) : (s.setThread p t).focus = s.focus := by
  unfold State.setThread; repeat' split
  all_goals rfl
@[simp] theorem State.setThread_agenda (s : State) (p : PartRef) (t : Thread) : (s.setThread p t).agenda = s.agenda := by
  unfold State.setThread; repeat' split
  all_goals rfl

/-- What is read back where a thread was put. -/
@[simp] theorem State.setThread_thread (s : State) (p : PartRef) (t : Thread) : (s.setThread p t).thread p = t := by
  cases p with
  | gang d c x sp => cases sp <;> simp [State.setThread, State.thread, State.setCtx, State.ctx]
  | ochre d i => simp [State.setThread, State.thread, State.setOchre, State.ochre, State.setDie, State.die]

/-- A scalar word's result stands in its thread. -/
theorem State.wr_thr (s : State) (n : BitVec 5) (v : Word) : (s.wr n v).thr = s.thr.setReg n.toNat v := by
  simp [State.wr, State.thr, State.setThr]

/-- A jump sets the PC of the part at work and says that the bundle's transfer is taken. -/
theorem State.jump_spec (s : State) (a : Word) :
    (s.jump a).thr = { s.thr with pc := a } ∧ (s.jump a).issue = { s.issue with taken := true }
      ∧ (s.jump a).mem = s.mem := by
  refine ⟨?_, ?_, ?_⟩
  · show (State.setThread s s.issue.part { s.thr with pc := a }).thread s.issue.part = _
    simp
  · simp [State.jump]
  · simp [State.jump, State.setThr]

/-- Flags add to what ARSTAT holds (R70). -/
theorem State.orFlags_arstat (s : State) (c : CtxRef) (f : BitVec 7) :
    ((s.orFlags c f).ctx c).arstat = (s.ctx c).arstat ||| f := by
  by_cases h : f = 0
  · simp [State.orFlags, h]
  · rw [State.orFlags, if_neg h]; simp [State.setCtx, State.ctx]

/-- Gathering flags touches no memory. -/
@[simp] theorem State.orFlags_mem (s : State) (c : CtxRef) (f : BitVec 7) : (s.orFlags c f).mem = s.mem := by
  unfold State.orFlags; split <;> rfl

/-! ### A home's write (R246) -/

/-- A line that leaves a slice leaves memory as it is. -/
@[simp] theorem State.evictLine_mem (s : State) (d line : Nat) : (s.evictLine d line).mem = s.mem := by
  unfold State.evictLine; split <;> rfl

/-- A flit that passes a router leaves memory as it is. -/
@[simp] theorem State.carry_mem (s : State) (d n : Nat) : (s.carry d n).mem = s.mem := rfl

@[simp] theorem State.carry_ctxs (s : State) (d n : Nat) : (s.carry d n).ctxs = s.ctxs := rfl
@[simp] theorem State.carry_cores (s : State) (d n : Nat) : (s.carry d n).cores = s.cores := rfl
@[simp] theorem State.carry_accs (s : State) (d n : Nat) : (s.carry d n).accs = s.accs := rfl
@[simp] theorem State.carry_parts (s : State) (d n : Nat) : (s.carry d n).parts = s.parts := rfl

/-- Flits that pass routers leave memory as it is. -/
@[simp] theorem State.carryAll_mem (l : List (Nat × Nat)) (s : State) : (s.carryAll l).mem = s.mem := by
  induction l generalizing s with
  | nil => rfl
  | cons a l ih => exact (ih (s.carry a.1 a.2)).trans (State.carry_mem s a.1 a.2)

/-- A line that is dropped from a slice leaves memory as it is. -/
@[simp] theorem State.leaveL2_mem (s : State) (d line : Nat) : (s.leaveL2 d line).mem = s.mem := by
  unfold State.leaveL2; dsimp only; split <;> simp

/-- Copies that leave other dies leave memory as it is. -/
@[simp] theorem State.dropCopies_mem (s : State) (line : Nat) (mine : BitVec 24) : (s.dropCopies line mine).mem = s.mem := by
  unfold State.dropCopies
  generalize bitsOf _ = l
  induction l generalizing s with
  | nil => rfl
  | cons d l ih => exact (ih _).trans (State.leaveL2_mem s d line)

/-- A slice that takes a line leaves memory as it is. -/
@[simp] theorem State.l2Hold_mem (s : State) (d line : Nat) : (s.l2Hold d line).mem = s.mem := by
  have fold : ∀ (l : List Nat) (s : State), (l.foldl (fun s l => s.evictLine d l) s).mem = s.mem := by
    intro l
    induction l with
    | nil => exact fun _ => rfl
    | cons a l ih => intro s; rw [List.foldl_cons, ih, State.evictLine_mem]
  unfold State.l2Hold
  dsimp only
  rw [fold, State.carry_mem, State.setDie_mem]

/-- A read of a line leaves memory as it is. -/
@[simp] theorem State.l2Read_mem (s : State) (d pa : Nat) (cached : Bool) : (s.l2Read d pa cached).mem = s.mem := by
  unfold State.l2Read
  split
  · rfl
  · dsimp only
    split <;> simp

/-- Memory after a home's write. -/
theorem State.homeWriteBy_mem (s : State) (keep : Option Nat) (pa : Nat) (l : List Byte) (tag : OwnerTag) :
    (s.homeWriteBy keep pa l tag).mem = s.mem.write pa l := by
  unfold State.homeWriteBy
  dsimp only
  split
  · rw [State.l2Hold_mem]; exact State.dropCopies_mem _ _ _
  · rfl

/-- Memory after a home's write: the bytes written, and nothing else. -/
theorem State.homeWrite_byte (s : State) (pa : Nat) (l : List Byte) (tag : OwnerTag) (y : Nat) (h : s.mem.wf) :
    (s.homeWrite pa l tag).mem.byte y = if pa ≤ y ∧ y < pa + l.length then (l[y - pa]?).getD 0 else s.mem.byte y := by
  rw [State.homeWrite, State.homeWriteBy_mem, Memory.byte_write _ _ _ _ h]

/-- A home's write keeps the canonical form. -/
theorem State.homeWriteBy_wf (s : State) (keep : Option Nat) (pa : Nat) (l : List Byte) (tag : OwnerTag) (h : s.mem.wf) :
    (s.homeWriteBy keep pa l tag).mem.wf := by
  rw [State.homeWriteBy_mem]; exact Memory.write_wf _ _ _ h

/-! ### Trap entry (R350) -/

/-- Freezing the other half leaves the thread of a part's own half. -/
theorem State.freezeOther_thread (s : State) (d c x : Nat) (sp b : Bool)
    (h : sp = true → (s.ctx ⟨d, c, x⟩).spare.isSome) :
    (s.freezeOther ⟨d, c, x⟩ sp b).thread (.gang d c x sp) = s.thread (.gang d c x sp) := by
  unfold State.freezeOther
  dsimp only
  split
  · rfl
  · cases sp
    · simp [State.thread, State.setCtx, State.ctx]
    · simp [State.thread, State.setCtx, State.ctx]

/-- Freezing touches no memory. -/
@[simp] theorem State.freezeOther_mem (s : State) (c : CtxRef) (sp b : Bool) : (s.freezeOther c sp b).mem = s.mem := by
  unfold State.freezeOther; dsimp only; split
  · rfl
  · split <;> rfl

/-- A cause that writes no record of its own leaves the state as it is where it is recorded. -/
@[simp] theorem State.recordAlways_none (s : State) (c : CtxRef) (sp ended : Bool) (q : Cause)
    (h : (alwaysRecord q.code && !q.recorded) = false) : s.recordAlways c sp ended q = s := by
  unfold State.recordAlways; rw [if_neg (by simp [h])]

/-- A trap of a part that runs no handler, in a program that has one, for a cause with no record to write: the part's
thread is at its handler with the trap's registers, and memory stays. -/
theorem State.enterTrap_spec (s : State) (d c x : Nat) (sp : Bool) (q : Cause) (resume : Word)
    (hh : (s.thread (.gang d c x sp)).handler = none) (ha : (s.ctx ⟨d, c, x⟩).handlerAddr ≠ 0)
    (hr : (alwaysRecord q.code && !q.recorded) = false) (hs : sp = true → (s.ctx ⟨d, c, x⟩).spare.isSome) :
    (s.enterTrap (.gang d c x sp) q resume).thread (.gang d c x sp)
        = (s.thread (.gang d c x sp)).enter q sp resume (s.ctx ⟨d, c, x⟩).handlerAddr
      ∧ (s.enterTrap (.gang d c x sp) q resume).mem = s.mem := by
  unfold State.enterTrap
  dsimp only
  rw [hh]
  simp only [ha, if_false, State.recordAlways_none _ _ _ _ _ hr]
  refine ⟨?_, by simp⟩
  rw [State.freezeOther_thread]
  · simp
  · intro h; subst h
    simp [State.setThread, State.setCtx, State.ctx]

/-- What a part holds as its handler starts (R350): TRAPPC where it goes on, TRAPVAL, the handler's address in the PC,
a further handler counted, its own count as it was (R147), and nothing exposed or waited for. -/
theorem Thread.enter_spec (t : Thread) (q : Cause) (half : Bool) (resume handler : Word) :
    (t.enter q half resume handler).trapcause = trapCause q t half
      ∧ (t.enter q half resume handler).trappc = pcBits resume ∧ (t.enter q half resume handler).trapval = q.val
      ∧ (t.enter q half resume handler).pc = handler ∧ (t.enter q half resume handler).issued = t.issued
      ∧ (t.enter q half resume handler).hgen = t.hgen + 1
      ∧ (t.enter q half resume handler).pend = [] ∧ (t.enter q half resume handler).la = []
      ∧ (t.enter q half resume handler).am = t.am ∧ (t.enter q half resume handler).stack = t.stack :=
  ⟨rfl, rfl, rfl, rfl, rfl, rfl, rfl, rfl, rfl, rfl⟩

end Sys2Proof.Machine
end

