-- ==== Sys2Proof/Laws/PerInstr.lean ====
section
/-!
SUPPORT. Laws stated instruction by instruction. OneEncoding: no instruction has both a word and a slot (R87, R96).
-/
namespace Sys2Proof

/-- An instruction has no word or no slot: an event of the machine has neither. -/
def Laws.OneEncoding.Statement (i : Instr) : Prop := encodeWord i = none ∨ slotOpcode i = none

theorem Laws.OneEncoding.issueSelect (die core : Nat) : Statement (.issueSelect die core) := .inl rfl
theorem Laws.OneEncoding.bundleIssue (p : PartRef) : Statement (.bundleIssue p) := .inl rfl
theorem Laws.OneEncoding.bankSwitchQuantum (die core slot : Nat) : Statement (.bankSwitchQuantum die core slot) := .inl rfl
theorem Laws.OneEncoding.contextWake (p : PartRef) : Statement (.contextWake p) := .inl rfl
theorem Laws.OneEncoding.startingComplete (die core ctx : Nat) : Statement (.startingComplete die core ctx) := .inl rfl
theorem Laws.OneEncoding.contextRetire (die core ctx : Nat) : Statement (.contextRetire die core ctx) := .inl rfl
theorem Laws.OneEncoding.add (d a b : BitVec 5) (l : BitVec 3) : Statement (.add d a b l) := .inr rfl
theorem Laws.OneEncoding.sub (d a b : BitVec 5) (l : BitVec 3) : Statement (.sub d a b l) := .inr rfl
theorem Laws.OneEncoding.mul (d a b : BitVec 5) (l : BitVec 3) : Statement (.mul d a b l) := .inr rfl
theorem Laws.OneEncoding.mulh (d a b : BitVec 5) (l : BitVec 3) : Statement (.mulh d a b l) := .inr rfl
theorem Laws.OneEncoding.mulhn (d a b : BitVec 5) (l : BitVec 3) : Statement (.mulhn d a b l) := .inr rfl
theorem Laws.OneEncoding.div (d a b : BitVec 5) (l : BitVec 3) : Statement (.div d a b l) := .inr rfl
theorem Laws.OneEncoding.divn (d a b : BitVec 5) (l : BitVec 3) : Statement (.divn d a b l) := .inr rfl
theorem Laws.OneEncoding.rem (d a b : BitVec 5) (l : BitVec 3) : Statement (.rem d a b l) := .inr rfl
theorem Laws.OneEncoding.remn (d a b : BitVec 5) (l : BitVec 3) : Statement (.remn d a b l) := .inr rfl
theorem Laws.OneEncoding.and (d a b : BitVec 5) (l : BitVec 3) : Statement (.and d a b l) := .inr rfl
theorem Laws.OneEncoding.or (d a b : BitVec 5) (l : BitVec 3) : Statement (.or d a b l) := .inr rfl
theorem Laws.OneEncoding.xor (d a b : BitVec 5) (l : BitVec 3) : Statement (.xor d a b l) := .inr rfl
theorem Laws.OneEncoding.shl (d a b : BitVec 5) (l : BitVec 3) : Statement (.shl d a b l) := .inr rfl
theorem Laws.OneEncoding.shr (d a b : BitVec 5) (l : BitVec 3) : Statement (.shr d a b l) := .inr rfl
theorem Laws.OneEncoding.sha (d a b : BitVec 5) (l : BitVec 3) : Statement (.sha d a b l) := .inr rfl
theorem Laws.OneEncoding.clz (d a : BitVec 5) : Statement (.clz d a) := .inr rfl
theorem Laws.OneEncoding.popc (d a : BitVec 5) : Statement (.popc d a) := .inr rfl
theorem Laws.OneEncoding.min (d a b : BitVec 5) (l : BitVec 3) : Statement (.min d a b l) := .inr rfl
theorem Laws.OneEncoding.max (d a b : BitVec 5) (l : BitVec 3) : Statement (.max d a b l) := .inr rfl
theorem Laws.OneEncoding.minn (d a b : BitVec 5) (l : BitVec 3) : Statement (.minn d a b l) := .inr rfl
theorem Laws.OneEncoding.maxn (d a b : BitVec 5) (l : BitVec 3) : Statement (.maxn d a b l) := .inr rfl
theorem Laws.OneEncoding.sel (d a b : BitVec 5) (l : BitVec 3) : Statement (.sel d a b l) := .inr rfl
theorem Laws.OneEncoding.cmpeq (d a b : BitVec 5) (l : BitVec 3) : Statement (.cmpeq d a b l) := .inr rfl
theorem Laws.OneEncoding.cmpne (d a b : BitVec 5) (l : BitVec 3) : Statement (.cmpne d a b l) := .inr rfl
theorem Laws.OneEncoding.cmplt (d a b : BitVec 5) (l : BitVec 3) : Statement (.cmplt d a b l) := .inr rfl
theorem Laws.OneEncoding.cmple (d a b : BitVec 5) (l : BitVec 3) : Statement (.cmple d a b l) := .inr rfl
theorem Laws.OneEncoding.cmpltn (d a b : BitVec 5) (l : BitVec 3) : Statement (.cmpltn d a b l) := .inr rfl
theorem Laws.OneEncoding.cmplen (d a b : BitVec 5) (l : BitVec 3) : Statement (.cmplen d a b l) := .inr rfl
theorem Laws.OneEncoding.movl (d : BitVec 5) (l : BitVec 3) : Statement (.movl d l) := .inr rfl
theorem Laws.OneEncoding.movlD (d : BitVec 5) (l : BitVec 3) : Statement (.movlD d l) := .inr rfl
theorem Laws.OneEncoding.lea (d a b : BitVec 5) (l : BitVec 3) (n : BitVec 2) : Statement (.lea d a b l n) := .inr rfl
theorem Laws.OneEncoding.addi (d a : BitVec 5) (i : BitVec 16) : Statement (.addi d a i) := .inr rfl
theorem Laws.OneEncoding.andi (d a : BitVec 5) (i : BitVec 16) : Statement (.andi d a i) := .inr rfl
theorem Laws.OneEncoding.ori (d a : BitVec 5) (i : BitVec 16) : Statement (.ori d a i) := .inr rfl
theorem Laws.OneEncoding.xori (d a : BitVec 5) (i : BitVec 16) : Statement (.xori d a i) := .inr rfl
theorem Laws.OneEncoding.shli (d a : BitVec 5) (n : BitVec 6) : Statement (.shli d a n) := .inr rfl
theorem Laws.OneEncoding.shri (d a : BitVec 5) (n : BitVec 6) : Statement (.shri d a n) := .inr rfl
theorem Laws.OneEncoding.shai (d a : BitVec 5) (n : BitVec 6) : Statement (.shai d a n) := .inr rfl
theorem Laws.OneEncoding.cmplti (d a : BitVec 5) (i : BitVec 16) : Statement (.cmplti d a i) := .inr rfl
theorem Laws.OneEncoding.ldb (d a : BitVec 5) (la : BitVec 4) (o : BitVec 12) : Statement (.ldb d a la o) := .inr rfl
theorem Laws.OneEncoding.ldh (d a : BitVec 5) (la : BitVec 4) (o : BitVec 12) : Statement (.ldh d a la o) := .inr rfl
theorem Laws.OneEncoding.ldw (d a : BitVec 5) (la : BitVec 4) (o : BitVec 12) : Statement (.ldw d a la o) := .inr rfl
theorem Laws.OneEncoding.ldd (d a : BitVec 5) (la : BitVec 4) (o : BitVec 12) : Statement (.ldd d a la o) := .inr rfl
theorem Laws.OneEncoding.ldbs (d a : BitVec 5) (la : BitVec 4) (o : BitVec 12) : Statement (.ldbs d a la o) := .inr rfl
theorem Laws.OneEncoding.ldhs (d a : BitVec 5) (la : BitVec 4) (o : BitVec 12) : Statement (.ldhs d a la o) := .inr rfl
theorem Laws.OneEncoding.ldws (d a : BitVec 5) (la : BitVec 4) (o : BitVec 12) : Statement (.ldws d a la o) := .inr rfl
theorem Laws.OneEncoding.loadAcquire (d a : BitVec 5) (la : BitVec 4) (sc sz : BitVec 3) (o : BitVec 6) : Statement (.loadAcquire d a la sc sz o) := .inr rfl
theorem Laws.OneEncoding.stb (d a : BitVec 5) (la : BitVec 4) (o : BitVec 12) : Statement (.stb d a la o) := .inr rfl
theorem Laws.OneEncoding.sth (d a : BitVec 5) (la : BitVec 4) (o : BitVec 12) : Statement (.sth d a la o) := .inr rfl
theorem Laws.OneEncoding.stw (d a : BitVec 5) (la : BitVec 4) (o : BitVec 12) : Statement (.stw d a la o) := .inr rfl
theorem Laws.OneEncoding.std (d a : BitVec 5) (la : BitVec 4) (o : BitVec 12) : Statement (.std d a la o) := .inr rfl
theorem Laws.OneEncoding.storeRelease (d a : BitVec 5) (la : BitVec 4) (sc sz : BitVec 3) (o : BitVec 6) : Statement (.storeRelease d a la sc sz o) := .inr rfl
theorem Laws.OneEncoding.amoadd (d a b : BitVec 5) (la : BitVec 4) (sc : BitVec 3) (o : BitVec 2) (z : BitVec 1) : Statement (.amoadd d a b la sc o z) := .inr rfl
theorem Laws.OneEncoding.amofadd (d a b : BitVec 5) (la : BitVec 4) (sc : BitVec 3) (o : BitVec 2) (z : BitVec 1) : Statement (.amofadd d a b la sc o z) := .inr rfl
theorem Laws.OneEncoding.amoand (d a b : BitVec 5) (la : BitVec 4) (sc : BitVec 3) (o : BitVec 2) (z : BitVec 1) : Statement (.amoand d a b la sc o z) := .inr rfl
theorem Laws.OneEncoding.amoor (d a b : BitVec 5) (la : BitVec 4) (sc : BitVec 3) (o : BitVec 2) (z : BitVec 1) : Statement (.amoor d a b la sc o z) := .inr rfl
theorem Laws.OneEncoding.amoxor (d a b : BitVec 5) (la : BitVec 4) (sc : BitVec 3) (o : BitVec 2) (z : BitVec 1) : Statement (.amoxor d a b la sc o z) := .inr rfl
theorem Laws.OneEncoding.amomin (d a b : BitVec 5) (la : BitVec 4) (sc : BitVec 3) (o : BitVec 2) (z : BitVec 1) : Statement (.amomin d a b la sc o z) := .inr rfl
theorem Laws.OneEncoding.amomax (d a b : BitVec 5) (la : BitVec 4) (sc : BitVec 3) (o : BitVec 2) (z : BitVec 1) : Statement (.amomax d a b la sc o z) := .inr rfl
theorem Laws.OneEncoding.amominn (d a b : BitVec 5) (la : BitVec 4) (sc : BitVec 3) (o : BitVec 2) (z : BitVec 1) : Statement (.amominn d a b la sc o z) := .inr rfl
theorem Laws.OneEncoding.amomaxn (d a b : BitVec 5) (la : BitVec 4) (sc : BitVec 3) (o : BitVec 2) (z : BitVec 1) : Statement (.amomaxn d a b la sc o z) := .inr rfl
theorem Laws.OneEncoding.amoswp (d a b : BitVec 5) (la : BitVec 4) (sc : BitVec 3) (o : BitVec 2) (z : BitVec 1) : Statement (.amoswp d a b la sc o z) := .inr rfl
theorem Laws.OneEncoding.amocas (d a b : BitVec 5) (la : BitVec 4) (sc : BitVec 3) (o : BitVec 2) (z : BitVec 1) : Statement (.amocas d a b la sc o z) := .inr rfl
theorem Laws.OneEncoding.fence (sc : BitVec 3) : Statement (.fence sc) := .inr rfl
theorem Laws.OneEncoding.fencex (y x : BitVec 4) (sc : BitVec 3) : Statement (.fencex y x sc) := .inr rfl
theorem Laws.OneEncoding.br (t : BitVec 21) : Statement (.br t) := .inr rfl
theorem Laws.OneEncoding.brl (t : BitVec 21) : Statement (.brl t) := .inr rfl
theorem Laws.OneEncoding.bz (a : BitVec 5) (t : BitVec 21) : Statement (.bz a t) := .inr rfl
theorem Laws.OneEncoding.bnz (a : BitVec 5) (t : BitVec 21) : Statement (.bnz a t) := .inr rfl
theorem Laws.OneEncoding.buk (k : BitVec 2) (t : BitVec 21) : Statement (.buk k t) := .inr rfl
theorem Laws.OneEncoding.bunk (k : BitVec 2) (t : BitVec 21) : Statement (.bunk k t) := .inr rfl
theorem Laws.OneEncoding.bdk (k j : BitVec 2) (t : BitVec 21) : Statement (.bdk k j t) := .inr rfl
theorem Laws.OneEncoding.bdkLong (k j : BitVec 2) (t : BitVec 21) : Statement (.bdkLong k j t) := .inr rfl
theorem Laws.OneEncoding.bdnk (k j : BitVec 2) (t : BitVec 21) : Statement (.bdnk k j t) := .inr rfl
theorem Laws.OneEncoding.bdnkLong (k j : BitVec 2) (t : BitVec 21) : Statement (.bdnkLong k j t) := .inr rfl
theorem Laws.OneEncoding.loop (a : BitVec 5) (t : BitVec 21) : Statement (.loop a t) := .inr rfl
theorem Laws.OneEncoding.loops (a : BitVec 5) (t : BitVec 21) : Statement (.loops a t) := .inr rfl
theorem Laws.OneEncoding.jr (a : BitVec 5) : Statement (.jr a) := .inr rfl
theorem Laws.OneEncoding.jrl (d a : BitVec 5) : Statement (.jrl d a) := .inr rfl
theorem Laws.OneEncoding.rdfirst (d : BitVec 5) (n : BitVec 4) : Statement (.rdfirst d n) := .inr rfl
theorem Laws.OneEncoding.rdlane (d : BitVec 5) (n : BitVec 4) (b : BitVec 5) (l : BitVec 3) : Statement (.rdlane d n b l) := .inr rfl
theorem Laws.OneEncoding.movam (d : BitVec 5) : Statement (.movam d) := .inr rfl
theorem Laws.OneEncoding.setam (b : BitVec 5) (l : BitVec 3) : Statement (.setam b l) := .inr rfl
theorem Laws.OneEncoding.lstr (d b : BitVec 5) (l : BitVec 3) : Statement (.lstr d b l) := .inr rfl
theorem Laws.OneEncoding.lbrk (b : BitVec 5) (l : BitVec 3) : Statement (.lbrk b l) := .inr rfl
theorem Laws.OneEncoding.bararv (n : BitVec 5) : Statement (.bararv n) := .inr rfl
theorem Laws.OneEncoding.barwt (n : BitVec 5) : Statement (.barwt n) := .inr rfl
theorem Laws.OneEncoding.waitc (c b : BitVec 5) (l : BitVec 3) : Statement (.waitc c b l) := .inr rfl
theorem Laws.OneEncoding.yield (b : BitVec 5) (l : BitVec 3) : Statement (.yield b l) := .inr rfl
theorem Laws.OneEncoding.yieldTimeout (die core ctx : Nat) : Statement (.yieldTimeout die core ctx) := .inl rfl
theorem Laws.OneEncoding.continuationTake (die core ctx : Nat) : Statement (.continuationTake die core ctx) := .inl rfl
theorem Laws.OneEncoding.slotwait (d a : BitVec 5) (sc : BitVec 3) (side : BitVec 1) : Statement (.slotwait d a sc side) := .inr rfl
theorem Laws.OneEncoding.slotwaitRecheck (die core ctx : Nat) : Statement (.slotwaitRecheck die core ctx) := .inl rfl
theorem Laws.OneEncoding.slotsig (a : BitVec 5) (sc : BitVec 3) (side : BitVec 1) : Statement (.slotsig a sc side) := .inr rfl
theorem Laws.OneEncoding.nop : Statement .nop := .inr rfl
theorem Laws.OneEncoding.trap (n : BitVec 3) : Statement (.trap n) := .inr rfl
theorem Laws.OneEncoding.rte : Statement .rte := .inr rfl
theorem Laws.OneEncoding.csrr (d : BitVec 5) (c : BitVec 12) : Statement (.csrr d c) := .inr rfl
theorem Laws.OneEncoding.csrw (a : BitVec 5) (c : BitVec 12) : Statement (.csrw a c) := .inr rfl
theorem Laws.OneEncoding.csrs (d a : BitVec 5) (c : BitVec 12) : Statement (.csrs d a c) := .inr rfl
theorem Laws.OneEncoding.csrc (d a : BitVec 5) (c : BitVec 12) : Statement (.csrc d a c) := .inr rfl
theorem Laws.OneEncoding.ldcwt (d a : BitVec 5) : Statement (.ldcwt d a) := .inr rfl
theorem Laws.OneEncoding.ldcwtLoadDone (die core ctx : Nat) : Statement (.ldcwtLoadDone die core ctx) := .inl rfl
theorem Laws.OneEncoding.lkfetch (d a : BitVec 5) (n : BitVec 8) : Statement (.lkfetch d a n) := .inr rfl
theorem Laws.OneEncoding.lkdedup (d a : BitVec 5) : Statement (.lkdedup d a) := .inr rfl
theorem Laws.OneEncoding.lkdedupClear (d a : BitVec 5) : Statement (.lkdedupClear d a) := .inr rfl
theorem Laws.OneEncoding.lkpool (d a b : BitVec 5) (o : BitVec 2) (s : BitVec 4) : Statement (.lkpool d a b o s) := .inr rfl
theorem Laws.OneEncoding.lkhand (a b : BitVec 5) (t : BitVec 1) : Statement (.lkhand a b t) := .inr rfl
theorem Laws.OneEncoding.mset (a b : BitVec 5) (n : BitVec 4) : Statement (.mset a b n) := .inr rfl
theorem Laws.OneEncoding.mloop (a b : BitVec 5) (n : BitVec 4) : Statement (.mloop a b n) := .inr rfl
theorem Laws.OneEncoding.mtern (a b : BitVec 5) (n : BitVec 4) : Statement (.mtern a b n) := .inr rfl
theorem Laws.OneEncoding.qres (a b : BitVec 5) (z : BitVec 1) (n : BitVec 3) : Statement (.qres a b z n) := .inr rfl
theorem Laws.OneEncoding.qcvt (a b : BitVec 5) (s : BitVec 2) (n : BitVec 3) : Statement (.qcvt a b s n) := .inr rfl
theorem Laws.OneEncoding.qprune (a b : BitVec 5) (n : BitVec 3) : Statement (.qprune a b n) := .inr rfl
theorem Laws.OneEncoding.qrel (n : BitVec 3) : Statement (.qrel n) := .inr rfl
theorem Laws.OneEncoding.cpyset (a b : BitVec 5) (n : BitVec 4) : Statement (.cpyset a b n) := .inr rfl
theorem Laws.OneEncoding.cpy (a b : BitVec 5) (g : BitVec 1) (n : BitVec 3) : Statement (.cpy a b g n) := .inr rfl
theorem Laws.OneEncoding.cpyy (a b : BitVec 5) (j : BitVec 2) (g : BitVec 1) (n : BitVec 3) : Statement (.cpyy a b j g n) := .inr rfl
theorem Laws.OneEncoding.ringset (a b : BitVec 5) (sc side : BitVec 1) (n : BitVec 4) : Statement (.ringset a b sc side n) := .inr rfl
theorem Laws.OneEncoding.gthrSp (a b : BitVec 5) : Statement (.gthrSp a b) := .inr rfl
theorem Laws.OneEncoding.gthrOb (a b : BitVec 5) (n : BitVec 3) : Statement (.gthrOb a b n) := .inr rfl
theorem Laws.OneEncoding.coll (a b : BitVec 5) : Statement (.coll a b) := .inr rfl
theorem Laws.OneEncoding.turn (a b : BitVec 5) (la : BitVec 4) : Statement (.turn a b la) := .inr rfl
theorem Laws.OneEncoding.linkst (a : BitVec 5) (la : BitVec 4) : Statement (.linkst a la) := .inr rfl
theorem Laws.OneEncoding.nodeset (a b : BitVec 5) (n : BitVec 6) : Statement (.nodeset a b n) := .inr rfl
theorem Laws.OneEncoding.nodeput (a b : BitVec 5) (la : BitVec 4) (n : BitVec 6) : Statement (.nodeput a b la n) := .inr rfl
theorem Laws.OneEncoding.launch (a b : BitVec 5) (la : BitVec 4) : Statement (.launch a b la) := .inr rfl
theorem Laws.OneEncoding.vadd (cl : Cluster) (f : Slot) : Statement (.vadd cl f) := .inl rfl
theorem Laws.OneEncoding.vsub (cl : Cluster) (f : Slot) : Statement (.vsub cl f) := .inl rfl
theorem Laws.OneEncoding.vmul (cl : Cluster) (f : Slot) : Statement (.vmul cl f) := .inl rfl
theorem Laws.OneEncoding.vfma (cl : Cluster) (f : Slot) : Statement (.vfma cl f) := .inl rfl
theorem Laws.OneEncoding.vfms (cl : Cluster) (f : Slot) : Statement (.vfms cl f) := .inl rfl
theorem Laws.OneEncoding.vfnma (cl : Cluster) (f : Slot) : Statement (.vfnma cl f) := .inl rfl
theorem Laws.OneEncoding.vmin (cl : Cluster) (f : Slot) : Statement (.vmin cl f) := .inl rfl
theorem Laws.OneEncoding.vmax (cl : Cluster) (f : Slot) : Statement (.vmax cl f) := .inl rfl
theorem Laws.OneEncoding.vabs (cl : Cluster) (f : Slot) : Statement (.vabs cl f) := .inl rfl
theorem Laws.OneEncoding.vneg (cl : Cluster) (f : Slot) : Statement (.vneg cl f) := .inl rfl
theorem Laws.OneEncoding.vmov (cl : Cluster) (f : Slot) : Statement (.vmov cl f) := .inl rfl
theorem Laws.OneEncoding.vsel (cl : Cluster) (f : Slot) : Statement (.vsel cl f) := .inl rfl
theorem Laws.OneEncoding.vcmpeq (cl : Cluster) (f : Slot) : Statement (.vcmpeq cl f) := .inl rfl
theorem Laws.OneEncoding.vcmplt (cl : Cluster) (f : Slot) : Statement (.vcmplt cl f) := .inl rfl
theorem Laws.OneEncoding.vcmple (cl : Cluster) (f : Slot) : Statement (.vcmple cl f) := .inl rfl
theorem Laws.OneEncoding.vand (cl : Cluster) (f : Slot) : Statement (.vand cl f) := .inl rfl
theorem Laws.OneEncoding.vor (cl : Cluster) (f : Slot) : Statement (.vor cl f) := .inl rfl
theorem Laws.OneEncoding.vxor (cl : Cluster) (f : Slot) : Statement (.vxor cl f) := .inl rfl
theorem Laws.OneEncoding.vnot (cl : Cluster) (f : Slot) : Statement (.vnot cl f) := .inl rfl
theorem Laws.OneEncoding.vshl (cl : Cluster) (f : Slot) : Statement (.vshl cl f) := .inl rfl
theorem Laws.OneEncoding.vshr (cl : Cluster) (f : Slot) : Statement (.vshr cl f) := .inl rfl
theorem Laws.OneEncoding.vsha (cl : Cluster) (f : Slot) : Statement (.vsha cl f) := .inl rfl
theorem Laws.OneEncoding.vcvt (cl : Cluster) (f : Slot) : Statement (.vcvt cl f) := .inl rfl
theorem Laws.OneEncoding.vclamp (cl : Cluster) (f : Slot) : Statement (.vclamp cl f) := .inl rfl
theorem Laws.OneEncoding.vbcast (cl : Cluster) (f : Slot) : Statement (.vbcast cl f) := .inl rfl
theorem Laws.OneEncoding.viota (cl : Cluster) (f : Slot) : Statement (.viota cl f) := .inl rfl
theorem Laws.OneEncoding.vrsum (cl : Cluster) (f : Slot) : Statement (.vrsum cl f) := .inl rfl
theorem Laws.OneEncoding.vcsum (cl : Cluster) (f : Slot) : Statement (.vcsum cl f) := .inl rfl
theorem Laws.OneEncoding.vrmax (cl : Cluster) (f : Slot) : Statement (.vrmax cl f) := .inl rfl
theorem Laws.OneEncoding.vcmax (cl : Cluster) (f : Slot) : Statement (.vcmax cl f) := .inl rfl
theorem Laws.OneEncoding.vtrn (cl : Cluster) (f : Slot) : Statement (.vtrn cl f) := .inl rfl
theorem Laws.OneEncoding.lds (f : Slot) : Statement (.lds f) := .inl rfl
theorem Laws.OneEncoding.sts (f : Slot) : Statement (.sts f) := .inl rfl
theorem Laws.OneEncoding.ldg (f : Slot) : Statement (.ldg f) := .inl rfl
theorem Laws.OneEncoding.stg (f : Slot) : Statement (.stg f) := .inl rfl
theorem Laws.OneEncoding.ldo (f : Slot) : Statement (.ldo f) := .inl rfl
theorem Laws.OneEncoding.sto (f : Slot) : Statement (.sto f) := .inl rfl
theorem Laws.OneEncoding.gath (f : Slot) : Statement (.gath f) := .inl rfl
theorem Laws.OneEncoding.scat (f : Slot) : Statement (.scat f) := .inl rfl
theorem Laws.OneEncoding.scadd (f : Slot) : Statement (.scadd f) := .inl rfl
theorem Laws.OneEncoding.vatom (f : Slot) : Statement (.vatom f) := .inl rfl
theorem Laws.OneEncoding.xcp (f : Slot) : Statement (.xcp f) := .inl rfl
theorem Laws.OneEncoding.qxch (f : Slot) : Statement (.qxch f) := .inl rfl
theorem Laws.OneEncoding.gshf (f : Slot) : Statement (.gshf f) := .inl rfl
theorem Laws.OneEncoding.gred (f : Slot) : Statement (.gred f) := .inl rfl
theorem Laws.OneEncoding.gscan (f : Slot) : Statement (.gscan f) := .inl rfl
theorem Laws.OneEncoding.gseg (f : Slot) : Statement (.gseg f) := .inl rfl
theorem Laws.OneEncoding.confd (f : Slot) : Statement (.confd f) := .inl rfl
theorem Laws.OneEncoding.vrcp (f : Slot) : Statement (.vrcp f) := .inl rfl
theorem Laws.OneEncoding.vsqrt (f : Slot) : Statement (.vsqrt f) := .inl rfl
theorem Laws.OneEncoding.vrsq (f : Slot) : Statement (.vrsq f) := .inl rfl
theorem Laws.OneEncoding.vexp2 (f : Slot) : Statement (.vexp2 f) := .inl rfl
theorem Laws.OneEncoding.vlog2 (f : Slot) : Statement (.vlog2 f) := .inl rfl
theorem Laws.OneEncoding.eext (f : Slot) : Statement (.eext f) := .inl rfl
theorem Laws.OneEncoding.eins (f : Slot) : Statement (.eins f) := .inl rfl
theorem Laws.OneEncoding.eadd (f : Slot) : Statement (.eadd f) := .inl rfl
theorem Laws.OneEncoding.esub (f : Slot) : Statement (.esub f) := .inl rfl
theorem Laws.OneEncoding.emul (f : Slot) : Statement (.emul f) := .inl rfl
theorem Laws.OneEncoding.emov (f : Slot) : Statement (.emov f) := .inl rfl
theorem Laws.OneEncoding.ecmp (f : Slot) : Statement (.ecmp f) := .inl rfl
theorem Laws.OneEncoding.anyk (f : Slot) : Statement (.anyk f) := .inl rfl
theorem Laws.OneEncoding.allk (f : Slot) : Statement (.allk f) := .inl rfl
theorem Laws.OneEncoding.setsh (f : Slot) : Statement (.setsh f) := .inl rfl
theorem Laws.OneEncoding.globalLoadSectorLand (acc piece : Nat) (early : Bool) : Statement (.globalLoadSectorLand acc piece early) := .inl rfl
theorem Laws.OneEncoding.storePerformAtHome (acc piece : Nat) : Statement (.storePerformAtHome acc piece) := .inl rfl
theorem Laws.OneEncoding.storeAck (acc : Nat) : Statement (.storeAck acc) := .inl rfl
theorem Laws.OneEncoding.atomicReturn (acc : Nat) : Statement (.atomicReturn acc) := .inl rfl
theorem Laws.OneEncoding.walkComplete (die entry : Nat) : Statement (.walkComplete die entry) := .inl rfl
theorem Laws.OneEncoding.mergeEntryRetry (die : Nat) : Statement (.mergeEntryRetry die) := .inl rfl
theorem Laws.OneEncoding.faultAnswerRetry (part : Nat) (token : BitVec 32) : Statement (.faultAnswerRetry part token) := .inl rfl
theorem Laws.OneEncoding.faultAnswerFail (part : Nat) (token : BitVec 32) : Statement (.faultAnswerFail part token) := .inl rfl
theorem Laws.OneEncoding.tlbInvalidate (part : Nat) (v : BitVec 64) : Statement (.tlbInvalidate part v) := .inl rfl
theorem Laws.OneEncoding.tlbInvalidateDone (part : Nat) : Statement (.tlbInvalidateDone part) := .inl rfl
theorem Laws.OneEncoding.matrixCommandStart (die core : Nat) : Statement (.matrixCommandStart die core) := .inl rfl
theorem Laws.OneEncoding.matrixKstepDone (die core : Nat) : Statement (.matrixKstepDone die core) := .inl rfl
theorem Laws.OneEncoding.predictionWake (p : PartRef) : Statement (.predictionWake p) := .inl rfl
theorem Laws.OneEncoding.mordantCommandRun (die core : Nat) : Statement (.mordantCommandRun die core) := .inl rfl
theorem Laws.OneEncoding.copyStart (die core : Nat) : Statement (.copyStart die core) := .inl rfl
theorem Laws.OneEncoding.copyComplete (die core : Nat) (run : CopyRun) : Statement (.copyComplete die core run) := .inl rfl
theorem Laws.OneEncoding.ringSlotServe (die core ring : Nat) : Statement (.ringSlotServe die core ring) := .inl rfl
theorem Laws.OneEncoding.gatherRequestStart (die : Nat) : Statement (.gatherRequestStart die) := .inl rfl
theorem Laws.OneEncoding.lkfetchLand (acc : Nat) : Statement (.lkfetchLand acc) := .inl rfl
theorem Laws.OneEncoding.ochreThreadEnd (die idx : Nat) : Statement (.ochreThreadEnd die idx) := .inl rfl
theorem Laws.OneEncoding.collInstanceForm (run : CollRun) : Statement (.collInstanceForm run) := .inl rfl
theorem Laws.OneEncoding.collComplete (inst member : Nat) : Statement (.collComplete inst member) := .inl rfl
theorem Laws.OneEncoding.turnService (link : Nat) : Statement (.turnService link) := .inl rfl
theorem Laws.OneEncoding.groupDrainEnd (link : Nat) (failed : Bool) : Statement (.groupDrainEnd link failed) := .inl rfl
theorem Laws.OneEncoding.deadTimeEnd (link : Nat) (failed : Bool) : Statement (.deadTimeEnd link failed) := .inl rfl
theorem Laws.OneEncoding.dwellEnd (link group : Nat) : Statement (.dwellEnd link group) := .inl rfl
theorem Laws.OneEncoding.turnBudgetWindow : Statement .turnBudgetWindow := .inl rfl
theorem Laws.OneEncoding.autoWindowEnd (link busyUp busyDown : Nat) : Statement (.autoWindowEnd link busyUp busyDown) := .inl rfl
theorem Laws.OneEncoding.autoEntry (link : Nat) : Statement (.autoEntry link) := .inl rfl
theorem Laws.OneEncoding.binAccept (die bin : Nat) : Statement (.binAccept die bin) := .inl rfl
theorem Laws.OneEncoding.binTimerExpire (die bin : Nat) : Statement (.binTimerExpire die bin) := .inl rfl
theorem Laws.OneEncoding.launchQueueTake (part q : Nat) : Statement (.launchQueueTake part q) := .inl rfl
theorem Laws.OneEncoding.placeGroup (part : Nat) : Statement (.placeGroup part) := .inl rfl
theorem Laws.OneEncoding.frontEndStarvation (part : Nat) : Statement (.frontEndStarvation part) := .inl rfl
theorem Laws.OneEncoding.preemptCandidate (part : Nat) : Statement (.preemptCandidate part) := .inl rfl
theorem Laws.OneEncoding.preempt (part : Nat) (v : BitVec 64) : Statement (.preempt part v) := .inl rfl
theorem Laws.OneEncoding.hardPreemptBound (die core ctx : Nat) : Statement (.hardPreemptBound die core ctx) := .inl rfl
theorem Laws.OneEncoding.saveRecordWrite (die core ctx : Nat) : Statement (.saveRecordWrite die core ctx) := .inl rfl
theorem Laws.OneEncoding.resume (die core ctx : Nat) : Statement (.resume die core ctx) := .inl rfl
theorem Laws.OneEncoding.causeArrive (die core ctx : Nat) (ext : Option ArrayError) : Statement (.causeArrive die core ctx ext) := .inl rfl
theorem Laws.OneEncoding.faultRecordDrain (part : Nat) : Statement (.faultRecordDrain part) := .inl rfl
theorem Laws.OneEncoding.faultMsix (part : Nat) : Statement (.faultMsix part) := .inl rfl
theorem Laws.OneEncoding.hostPostedWrite (part : Nat) (w : Option HostWrite) : Statement (.hostPostedWrite part w) := .inl rfl
theorem Laws.OneEncoding.hostNonpostedRequest (part : Nat) (r : HostRequest) : Statement (.hostNonpostedRequest part r) := .inl rfl
theorem Laws.OneEncoding.bar2Access (part n : Nat) : Statement (.bar2Access part n) := .inl rfl
theorem Laws.OneEncoding.sysReleaseFlushRead (part : Nat) : Statement (.sysReleaseFlushRead part) := .inl rfl
theorem Laws.OneEncoding.indigoSlot (die cluster : Nat) : Statement (.indigoSlot die cluster) := .inl rfl
theorem Laws.OneEncoding.indigoDelivery (die cluster : Nat) : Statement (.indigoDelivery die cluster) := .inl rfl
theorem Laws.OneEncoding.escapeTimeout (die router : Nat) : Statement (.escapeTimeout die router) := .inl rfl
theorem Laws.OneEncoding.routerPowerDown (die router : Nat) : Statement (.routerPowerDown die router) := .inl rfl
theorem Laws.OneEncoding.routerWake (die router : Nat) : Statement (.routerWake die router) := .inl rfl
theorem Laws.OneEncoding.linkReplay (link : Nat) (port : Bool) (group replays crcErrors : Nat) : Statement (.linkReplay link port group replays crcErrors) := .inl rfl
theorem Laws.OneEncoding.airufoldPortRetire (port : Nat) : Statement (.airufoldPortRetire port) := .inl rfl
theorem Laws.OneEncoding.dieContain (die : Nat) (why : ContainCause) : Statement (.dieContain die why) := .inl rfl
theorem Laws.OneEncoding.dieWatchdog (die : Nat) : Statement (.dieWatchdog die) := .inl rfl
theorem Laws.OneEncoding.dieReadmit (die : Nat) (stepFailed : Bool) : Statement (.dieReadmit die stepFailed) := .inl rfl
theorem Laws.OneEncoding.pcieLinkDown (part : Nat) : Statement (.pcieLinkDown part) := .inl rfl
theorem Laws.OneEncoding.hostCompletionTimeout (acc : Nat) : Statement (.hostCompletionTimeout acc) := .inl rfl
theorem Laws.OneEncoding.memoryScrub (line : Nat) (found : ScrubFinding) : Statement (.memoryScrub line found) := .inl rfl
theorem Laws.OneEncoding.correctedErrorRecord (die array index : Nat) : Statement (.correctedErrorRecord die array index) := .inl rfl
theorem Laws.OneEncoding.evictionError (line : Nat) : Statement (.evictionError line) := .inl rfl
theorem Laws.OneEncoding.bringupStage (e : StageEnd) : Statement (.bringupStage e) := .inl rfl
theorem Laws.OneEncoding.gateUpdate (env : ThermalReading) : Statement (.gateUpdate env) := .inl rfl
theorem Laws.OneEncoding.dieThermalHold (die : Nat) : Statement (.dieThermalHold die) := .inl rfl
theorem Laws.OneEncoding.partitionForm (plan : FormPlan) : Statement (.partitionForm plan) := .inl rfl
theorem Laws.OneEncoding.lqcfgWrite (part q : Nat) (v : BitVec 64) : Statement (.lqcfgWrite part q v) := .inl rfl
theorem Laws.OneEncoding.lqbaseWrite (part q : Nat) (v : BitVec 64) : Statement (.lqbaseWrite part q v) := .inl rfl
theorem Laws.OneEncoding.lqwpWrite (part q : Nat) (v : BitVec 64) : Statement (.lqwpWrite part q v) := .inl rfl
theorem Laws.OneEncoding.fqcfgWrite (part : Nat) (v : BitVec 64) : Statement (.fqcfgWrite part v) := .inl rfl
theorem Laws.OneEncoding.fqrpWrite (part : Nat) (v : BitVec 64) : Statement (.fqrpWrite part v) := .inl rfl
theorem Laws.OneEncoding.imginv (part : Nat) (v : BitVec 64) : Statement (.imginv part v) := .inl rfl
theorem Laws.OneEncoding.imginvDone (part : Nat) : Statement (.imginvDone part) := .inl rfl
theorem Laws.OneEncoding.featackWrite (part : Nat) (hi : Bool) (v : BitVec 64) : Statement (.featackWrite part hi v) := .inl rfl
theorem Laws.OneEncoding.pwrcapWrite (part : Nat) (v : BitVec 64) : Statement (.pwrcapWrite part v) := .inl rfl
theorem Laws.OneEncoding.diectlWrite (part : Nat) (v : BitVec 64) : Statement (.diectlWrite part v) := .inl rfl
theorem Laws.OneEncoding.attctlGo (part : Nat) (v : BitVec 64) : Statement (.attctlGo part v) := .inl rfl
theorem Laws.OneEncoding.attestDone (part : Nat) : Statement (.attestDone part) := .inl rfl
theorem Laws.OneEncoding.mgmtRegisterWrite (part off : Nat) (v : BitVec 64) : Statement (.mgmtRegisterWrite part off v) := .inl rfl
theorem Laws.OneEncoding.powerGood : Statement .powerGood := .inl rfl
theorem Laws.OneEncoding.pcieLinkTrained (part : Nat) : Statement (.pcieLinkTrained part) := .inl rfl
theorem Laws.OneEncoding.airufoldRouteGiveUp (port acc : Nat) : Statement (.airufoldRouteGiveUp port acc) := .inl rfl
theorem Laws.OneEncoding.fansIgnoredWrite (part : Nat) (v : BitVec 64) : Statement (.fansIgnoredWrite part v) := .inl rfl
theorem Laws.OneEncoding.airufoldInboundRequest (r : HostRequest) : Statement (.airufoldInboundRequest r) := .inl rfl

end Sys2Proof
end

