-- ==== Sys2Proof/Laws/Units.lean ====
section
/-!
SUPPORT. What the units' accesses to global memory do: lookups change no byte, and an answered read gives the bytes of
its sectors.
-/
namespace Sys2Proof.Machine

/-- A lookup in the L2 TLB leaves memory as it is. -/
@[simp] theorem State.lookupL2_mem (s : State) (die part va : Nat) (k : AccessKind) :
    (s.lookupL2 die part va k).2.mem = s.mem := by
  unfold State.lookupL2
  split
  · rfl
  · dsimp only
    split
    · rfl
    · split <;> rfl

/-- A unit's lookups that find every page leave memory as it is. -/
theorem State.unitMap_mem (die : Nat) (who : Requester) (k : AccessKind) : ∀ (l : List (Nat × Nat × Nat)) (s u : State)
    (m : List (Nat × Nat × Nat)), s.unitMap die who k l = (.at_ m, u) → u.mem = s.mem
  | [], s, u, m, h => by cases h; rfl
  | (va, n, o) :: r, s, u, m, h => by
    simp only [State.unitMap] at h
    split at h
    · cases h
    · cases h
    · split at h
      · cases h
      · split at h
        next e =>
          cases h
          rw [State.unitMap_mem die who k r _ _ _ e]
          split <;> simp
        next e _ => simp_all

/-- A unit's read that is answered gives the bytes of its sectors. -/
theorem State.unitRead_bytes {s u : State} {die : Nat} {who : Requester} {va n : Nat} {l : List Byte}
    (h : s.unitRead die who va n = (.bytes l, u)) : ∃ m, (s.unitMap die who .read (sectors va n)).1 = .at_ m ∧
      l = m.flatMap (fun p => s.mem.read p.2.2 p.2.1) := by
  unfold State.unitRead at h
  split at h
  · cases h
  · cases h
  next m v e =>
    split at h
    · cases h
    · cases h; exact ⟨m, by rw [e], by rw [State.unitMap_mem _ _ _ _ _ _ _ e]⟩

end Sys2Proof.Machine
end

