-- ==== Sys2Proof/Tests/Slice0.lean ====
section
/-!
SUPPORT. Tests: words decoded from encodings written out by hand, terms that are not well formed, steps on small states,
and for every statement that has hypotheses a state that meets them, clause by clause.
-/
namespace Sys2Proof.Tests
open Sys2Proof Sys2Proof.Machine
set_option Elab.async false

/-! ### States -/

/-- Context 0 of core 0 of die 0. -/
def c0 : CtxRef := ⟨0, 0, 0⟩

/-- Its whole gang. -/
def p0 : PartRef := .gang 0 0 0 false

/-- A state with the context changed. -/
def onCtx (s : State) (f : Context → Context) : State := s.setCtx c0 (f (s.ctx c0))

/-- A state with its primary thread changed. -/
def onThread (s : State) (f : Thread → Thread) : State := onCtx s fun c => { c with main := f c.main }

/-- A state with every engine of the context changed. -/
def onEngines (s : State) (f : Nat → Engine → Engine) : State :=
  onCtx s fun c => { c with eng := (List.range 16).map (fun e => (e, f e (c.engine e))) }

/-- The module with a bundle open at 0x10000: registers, active mask, PC at the next bundle, a handler. -/
def opened (regs : List (Nat × Word)) (am : BitVec 16) : State :=
  let s := onCtx (State.reset.withFetchWord 32 0xFC000000) fun c =>
    { c with handlerAddr := 0x20000, main := { c.main with regs := regs, am := am, pc := 0x10018 } }
  { s with issue := { Issue.zero with part := p0, addr := 0x10000, src := regs, am := am, lits := [0x14, 0x80000001, 7, 8],
                                      word := 1 } }

/-- Registers with an aligned address in s1, zero in s2, a count in s7, one in s24, an odd address in s30. -/
def regs0 : List (Nat × Word) := [(1, 0x18000), (2, 0), (7, 0x10200), (24, 1), (30, 0x18002), (31, 0x20)]

/-- The base state: engines 0, 1 and 4 to 7 active. -/
def base : State := opened regs0 0x00F3

/-- The gang split: engines 4 to 7 in the spare half. -/
def halved : State := onCtx base fun c => { c with
  spare := some { c.main with am := 0x00F0 }, main := { c.main with am := 0x0003 } }

theorem test_base : base.issuerOk = true ∧ base.gangOk = true ∧ base.wholeOk = true ∧ base.trapOk = true := by
  decide +kernel

/-! ### States that meet the hypotheses: words -/

/-- SumsAndProducts, Quotients, BitsAndShifts, ComparesAndChoices. -/
theorem witness_integer_words : base.issuerOk = true := by decide +kernel

/-- LiteralsAndLanes: the lowest active engine is the last one; each CSR is known. -/
theorem witness_LiteralsAndLanes : (opened regs0 0x8000).issuerOk = true ∧ base.onOchre = false ∧
    ((opened regs0 0x8000).issue.am.getLsbD 15 = true ∧ ∀ k, k < 15 → (opened regs0 0x8000).issue.am.getLsbD k = false) ∧
    csrKnown 0 = true ∧ csrKnown 0x23 = true := by decide +kernel

/-- ScalarAccessesBegin, ScalarAtomicsBegin: the furthest displacements, aligned. -/
theorem witness_scalar_accesses : base.issuerOk = true ∧
    (base.rd 1 + BitVec.ofInt 64 ((0x800#12).toInt * 8)).toNat % 8 = 0 ∧
    (base.rd 1 + BitVec.ofInt 64 ((0x7FF#12).toInt * 2)).toNat % 2 = 0 ∧
    (base.rd 1 + BitVec.ofNat 64 ((63#6).toNat * (sizeCode 2).1)).toNat % (sizeCode 2).1 = 0 ∧
    (base.rd 1).toNat % 8 = 0 := by decide +kernel

/-- The same: an odd address. -/
theorem witness_misaligned : (base.rd 24).toNat % 2 ≠ 0 ∧ (base.rd 24 + BitVec.ofInt 64 ((0x800#12).toInt * 2)).toNat % 2 ≠ 0 ∧
    (base.rd 24 + BitVec.ofNat 64 ((63#6).toNat * (sizeCode 3).1)).toNat % (sizeCode 3).1 ≠ 0 ∧
    base.issue.checked = false ∧ base.trapOk = true := by decide +kernel

/-- FencesInForce. -/
theorem witness_FencesInForce : base.issuerOk = true ∧ base.onOchre = false := by decide +kernel

/-- PlainBranches: a register that is zero, and one that is not. -/
theorem witness_PlainBranches : base.issuerOk = true ∧ base.rd 2 = 0 ∧ base.rd 7 ≠ 0 := by decide +kernel

/-- The base state with condition bit 0 of engine e as bit e of a mask. -/
def conds (m : BitVec 16) (s : State) : State := onEngines s fun e x => { x with k := if m.getLsbD e then 1 else 0 }

/-- An entry of the reconvergence stack. -/
def entry : StackEntry :=
  { split := false, ph := false, join := 0x10100, resume := 0x10040, full := 0x00F3, pend := 0x00F0 }

/-- ConditionBranches, LongBranchesSplit: engines that agree either way, engines that do not, with UCHK set and clear,
the last free place of the stack and none, and a gang that may split and one that may not. -/
theorem witness_condition_branches :
    let k (s : State) (e : Nat) : Bool := (s.tileCtx.engine e).k.getLsbD 0
    (∀ e, e < 16 → base.issue.am.getLsbD e = true → k (conds 0xFFFF base) e = true) ∧
    (∀ e, e < 16 → base.issue.am.getLsbD e = true → k (conds 0 base) e = false) ∧
    (let s := conds 2 base;
      k s 0 = false ∧ k s 1 = true ∧ s.gangOk = true ∧ s.issue.am.getLsbD 0 = true ∧ s.issue.am.getLsbD 1 = true ∧
      s.issue.uchk = false ∧ s.maySplit = true ∧ s.home = c0 ∧ s.stackDepth < 32) ∧
    (let s := { conds 2 base with issue := { base.issue with uchk := true } };
      s.gangOk = true ∧ s.trapOk = true ∧ s.issue.checked = false ∧ s.issue.uchk = true ∧ k s 0 = false ∧ k s 1 = true) ∧
    (let s := onThread (conds 2 base) fun t => { t with stack := List.replicate 31 entry };
      s.gangOk = true ∧ s.stackDepth = 31) ∧
    (let s := onThread (conds 2 base) fun t => { t with stack := List.replicate 32 entry };
      s.gangOk = true ∧ s.stackDepth = 32 ∧ s.trapOk = true ∧ s.issue.checked = false) ∧
    (conds 2 halved).maySplit = false ∧ (conds 2 halved).gangOk = true := by decide +kernel

/-- A loop level. -/
def level : LoopLevel := { start := 0x10018, last := 0x10030, rem := 4, iter := 0, bind := [(7, 5)] }

/-- A state with n levels. -/
def looping (n : Nat) : State := onThread base fun t => { t with loops := List.replicate n level }

/-- LoopPushes: the sixth level, an empty body whose end can be read, a target too low, a seventh level. -/
theorem witness_LoopPushes :
    ((looping 5).issuerOk = true ∧ (looping 5).thr.pc = 0x10018 ∧ (looping 5).thr.loops.length = 5 ∧
      ((looping 5).rd 7).toNat % 2 ^ 32 ≠ 0) ∧
    ((base.rd 2).toNat % 2 ^ 32 = 0 ∧ (base.fetchWord base.issue.part 0x10018).1 = .word 0) ∧
    ((looping 6).trapOk = true ∧ (looping 6).issue.checked = false ∧ (looping 6).thr.loops.length = 6) := by decide +kernel

/-- Two row pointers at 0x18000. -/
def rows : State := { base with mem := base.mem.write 0x18000 (toBytes 4 3 ++ toBytes 4 10) }

/-- RowLoopsAndBindings: row pointers in order, a pointer that is misaligned, a level to bind to and to break from, and
none. -/
theorem witness_RowLoopsAndBindings :
    (rows.issuerOk = true ∧ (rows.rd 1).toNat % 4 = 0 ∧
      (rows.rowPointers (rows.rd 1)).1 = .bytes (toBytes 4 3 ++ toBytes 4 10) ∧
      ofBytes (toBytes 4 3) < ofBytes (toBytes 4 10) ∧ rows.thr.loops.length ≠ 6) ∧
    ((rows.rd 30).toNat % 4 ≠ 0 ∧ rows.issue.checked = false ∧ rows.trapOk = true) ∧
    ((looping 1).thr.loops = [level] ∧ (looping 1).zeroTrip = false ∧ (looping 1).check (.lstr 7 2 0) = none ∧
      (looping 1).check (.lstr 5 2 0) = none) ∧
    base.thr.loops = [] := by decide +kernel

/-- SetamMask: with an entry, without one, and an empty result without one. -/
theorem witness_SetamMask :
    (onThread base fun t => { t with stack := [entry] }).topEntry = some entry ∧
    (base.gangOk = true ∧ base.topEntry = none ∧ (base.opB 24 0).setWidth 16 &&& base.tileCtx.lm ≠ 0) ∧
    ((base.opB 2 0).setWidth 16 &&& base.tileCtx.lm = 0 ∧ base.pushesHere = false ∧ base.issue.checked = false ∧
      base.trapOk = true) := by decide +kernel

/-- WaitingWords. -/
theorem witness_WaitingWords : base.wholeOk = true ∧ base.gangOk = true ∧
    (halved.inHalf = true ∧ halved.issue.checked = false ∧ halved.trapOk = true) := by decide +kernel

/-- A ring descriptor of two slots, both full, at 0x18000. -/
def ringBytes : List Byte := toBytes 8 6 ++ toBytes 8 4 ++ toBytes 4 2 ++ toBytes 4 4096 ++ toBytes 8 0x200000 ++ toBytes 32 0

/-- The base state with it. -/
def ringState : State := { base with mem := base.mem.write 0x18000 ringBytes }

/-- One with another number of slots, slot size and base. -/
def ringOther (nslot slotb base_ : Nat) : State :=
  let l := toBytes 8 6 ++ toBytes 8 4 ++ toBytes 4 nslot ++ toBytes 4 slotb ++ toBytes 8 base_ ++ toBytes 32 0
  { base with mem := base.mem.write 0x18000 l }
/-- Its descriptor can be read, and says so. -/
def ringReads (s : State) (nslot slotb base_ : Nat) : Bool := match (s.reading (s.rd 1).toNat 64 none).1 with
  | .bytes l => (ringOf l).nslot == nslot && (ringOf l).slotb == slotb && (ringOf l).base == base_
  | _ => false

/-- RingWords: a ring whose slots are both full, a misaligned descriptor, and descriptors that break each of R143's rules. -/
theorem witness_RingWords : ringState.wholeOk = true ∧ ringState.check (.slotwait 5 1 2 0) = none ∧
    (∀ x ∈ [(2, 4096, 0x200008), (0, 4096, 0x200000), (65537, 4096, 0x200000), (2, 32, 0x200000)],
      let s := ringOther x.1 x.2.1 x.2.2;
      ringReads s x.1 x.2.1 x.2.2 = true ∧ (s.rd 1).toNat % 64 = 0 ∧ s.issue.checked = false ∧ s.trapOk = true) ∧
    (ringState.reading (ringState.rd 1).toNat 64 (some (scopeOf 2))).1 = .bytes ringBytes ∧
    ringState.check (.slotsig 1 2 1) = none ∧
    ((ringState.rd 30).toNat % 64 ≠ 0 ∧ ringState.issue.checked = false ∧ ringState.trapOk = true) := by decide +kernel

/-- The context BLOCKED in a wait, half a microsecond on. -/
def waiting (w : Wait) : State :=
  { onCtx ringState (fun c => { c with st := .blocked, main := { c.main with waits := [w] } }) with time := 84000 }

/-- WaitsEnd, wait by wait. -/
theorem witness_WaitsEnd :
    (let s := onCtx (waiting (.yield 90000 0x10000)) fun c => { c with posts := [0x10040, 0x10080] };
      s.waitsFor c0 (.yield 90000 0x10000) = true ∧ (s.ctx c0).posts = [0x10040, 0x10080] ∧ (0x10040 : Word).toNat % 4 = 0) ∧
    ((waiting (.yield 84000 0x10000)).waitsFor c0 (.yield 84000 0x10000) = true ∧
      ((waiting (.yield 84000 0x10000)).ctx c0).posts = []) ∧
    (let s := waiting (.slotwait 0x18000 false .die);
      s.waitsFor c0 (.slotwait 0x18000 false .die) = true ∧
      (s.peekWith p0 0x18000 64 (some .die)).1 = .bytes ringBytes ∧ (ringOf ringBytes).slot false = some 0x200000) ∧
    (let s := onCtx (waiting (.waitc 1 2)) fun c => { c with wc := [(1, 2)] };
      s.waitsFor c0 (.waitc 1 2) = true ∧ ngetD (s.ctx c0).wc 1 0 ≤ 2) ∧
    ((waiting (.barwt 3)).waitsFor c0 (.barwt 3) = true ∧ (waiting (.barwt 3)).barrierMet c0 3 = true) ∧
    ((waiting (.predict 1050 2)).waitsFor c0 (.predict 1050 2) = true ∧ (waiting (.predict 1050 2)).cycle = 1050) := by
  decide +kernel

/-! ### States that meet the hypotheses: traps, CSRs, tables -/

/-- A handler entered at one loop level and no stack entry. -/
def handling : HandlerEntry :=
  { am := 0x0F0F, loopDepth := 1, stackDepth := 0, pend := [], la := [], code := 0x40 }

/-- The base state inside it, at n loop levels. -/
def inside (n : Nat) : State := onThread (looping n) fun t => { t with handler := some handling, trappc := 0x10044 }

/-- A bundle of the spare half open. -/
def spareOpen : State := { halved with issue := { halved.issue with part := .gang 0 0 0 true } }

/-- TrapEntry, ReturnFromTrap: outside a handler, in a spare half, inside a handler at its depths, and beyond them. -/
theorem witness_traps : base.trapOk = true ∧ base.inSpare = false ∧ base.issue.checked = false ∧
    (spareOpen.trapOk = true ∧ spareOpen.inSpare = true) ∧
    ((inside 1).gangOk = true ∧ (inside 1).thr.handler = some handling ∧ (inside 1).thr.loops.length ≤ handling.loopDepth ∧
      (inside 1).thr.stack.length ≤ handling.stackDepth ∧ (inside 1).thr.causes = []) ∧
    ((inside 2).gangOk = true ∧ handling.loopDepth < (inside 2).thr.loops.length) := by decide +kernel

/-- CsrWrites: the registers a program may write, one it may only read, and one that does not exist. -/
theorem witness_CsrWrites : base.gangOk = true ∧ base.trapOk = true ∧ base.issue.checked = false ∧
    csrKnown 0x006 = true ∧ csrWritable 0x006 = false ∧ csrKnown 0x7FF = false ∧ csrWritable 0x7FF = false := by decide +kernel

/-- A slot of four 256-bit entries' first: VADD in VA. -/
def vaddEntry : List Byte := toBytes 8 0x0000000000000101 ++ toBytes 24 0

/-- An LDCWT of two entries, both read. -/
def tableLoad : Access :=
  { id := 0, who := p0, by_ := { ctx := c0, spare := false, pc := 0x10000, at_ := 1, inHandler := false }, path := .scalar,
    op := .ldcwt 510 2, acq := none, rel := none, wc := 0, dropped := false, dead := [],
    pieces := [{ Piece.mk' 0x18000 32 vaddEntry with st := .acked },
               { Piece.mk' 0x18020 32 (toBytes 32 0) with st := .acked }] }

/-- ControlWordTables: no entry, the whole table, an entry too many, a misaligned source, and a load that is complete. -/
theorem witness_ControlWordTables :
    (base.wholeOk = true ∧ base.rd 2 = 0) ∧
    (let s := opened [(3, 0x02000000), (4, 0x18000), (5, 0x02000001), (6, 0x18010)] 0xFFFF;
      s.wholeOk = true ∧ (s.rd 3).toNat % 512 + (s.rd 3).toNat / 2 ^ 16 % 1024 = 512 ∧ (s.rd 4).toNat % 32 = 0 ∧
      (s.rd 5).toNat % 512 + (s.rd 5).toNat / 2 ^ 16 % 1024 = 513 ∧ (s.rd 6).toNat % 32 ≠ 0 ∧ s.trapOk = true ∧
      s.issue.checked = false) ∧
    ((∀ p ∈ tableLoad.pieces, p.st = .acked) ∧ tableLoad.index = none ∧
      entriesOf 2 tableLoad.bytes = [0x101, 0] ∧ entryOk 0x101 = true ∧ entryOk 0 = true) := by decide +kernel

/-! ### States that meet the hypotheses: Ochre threads -/

/-- A gather request of the context. -/
def request : GatherReq := { codeRequest with dst := 0x100, eng := 2 }

/-- The bundle of an Ochre thread open, its core changed. -/
def threadState (f : Ochre → Ochre) : State :=
  let s := State.reset.withFetchWord 32 0x28000000
  let o := s.ochre 0 0
  let s := s.setOchre 0 0 (f { o with req := some request, thread := { o.thread with regs := regs1, pc := 0x10018 } })
  { s with issue := { Issue.zero with part := .ochre 0 0, addr := 0x10000, src := regs1, lits := [0x14], word := 1 } }
where
  regs1 : List (Nat × Word) := [(1, 0x18010), (2, 0x40), (3, 1), (4, 0xFFF0), (5, 16)]

/-- A request that hands its bytes to OSB range 6, at byte 512, a later one having delivered the last byte. -/
def requestOb : GatherReq :=
  { request with ob := some (BitVec.ofNat 128 (0x3F800000 + 8 * 2 ^ 32 + 64 * 2 ^ 42 + 1 * 2 ^ 56)), obN := 6
                 newer := [(true, 2, 512 + 4095, 1)] }

/-- OchreThreadWords: rows at both ends of the local store, a key held, one for the last free entry and one for none,
bytes pooled, bytes handed up to the end of the allocation and past it, and a thread that has ended. -/
theorem witness_OchreThreadWords :
    (let s := threadState id;
      s.issuerOk = true ∧ s.onOchre = true ∧ (s.rd 4).toNat % 16 = 0 ∧ (s.rd 4).toNat + 16 * 1 = 65536 ∧
      s.ochreHere.find (s.rd 1) = none ∧ nget s.ochreHere.cam 0 = none ∧ s.check (.lkpool 2 2 3 0 6) = none ∧
      (s.rd 3).toNat = 1 ∧ s.check (.lkhand 2 5 1) = none ∧ s.ochreHere.req = some request ∧ request.ob = none ∧
      request.by_.ctx.ok = true) ∧
    (threadState fun o => { o with cam := [(7, 0x18010)] }).ochreHere.find 0x18010 = some 7 ∧
    (let o := (threadState fun o => { o with cam := (List.range 255).map (fun i => (i, 5)) }).ochreHere;
      o.find 0x18010 = none ∧ nget o.cam 255 = none ∧ ∀ y, y < 255 → nget o.cam y ≠ none) ∧
    (let o := (threadState fun o => { o with cam := (List.range 256).map (fun i => (i, 5)) }).ochreHere;
      o.find 0x18010 = none ∧ ∀ y, y < 256 → nget o.cam y ≠ none) ∧
    ((threadState fun o => { o with done := true }).ochreHere.done = true) ∧
    (let s := threadState fun o => { o with handed := 262144 - 256 - 16 };
      s.ochreHere.done = false ∧ (s.core 0 0).written = [] ∧
      request.dst.toNat + s.ochreHere.handed + (s.rd 5).toNat = (s.ctx request.by_.ctx).spadSize) ∧
    (let s := threadState fun o => { o with handed := 262144 - 256 - 15 };
      s.ochreHere.done = false ∧
      (s.ctx request.by_.ctx).spadSize < request.dst.toNat + s.ochreHere.handed + (s.rd 5).toNat) ∧
    (∀ n ∈ [4096 - 256 - 16, 4096 - 256 - 15], let s := threadState fun o => { o with req := some requestOb, handed := n };
      s.ochreHere.done = false ∧ s.ochreHere.req = some requestOb ∧ s.check (.lkhand 2 5 1) = none ∧
      (s.core 0 0).written = [] ∧ requestOb.eng < 16) ∧
    (let s := threadState fun o => { o with req := some requestOb, handed := 4096 - 256 - 16 };
      (requestOb.ob.elim 0 fun v => obLen v * 64) = requestOb.dst.toNat + s.ochreHere.handed + (s.rd 5).toNat ∧
      (s.ctx c0).osbBase + 512 + requestOb.dst.toNat + s.ochreHere.handed + 16 ≤ 65536) ∧
    (let s := threadState id; s.onOchre = true ∧ s.issue.checked = false ∧ (s.rd 3).toNat % 2 ≠ 0) := by decide +kernel

/-! ### States that meet the hypotheses: records, commands, links -/

/-- RecordsAndUnitCommands: records that keep their field rules and records that do not, a conversion of each kind and a
pruning that pass, a loop of no K-step and one of 512. -/
theorem witness_RecordsAndUnitCommands :
    (let s := opened [(1, 0x40), (2, 0x1), (3, 0xF000000000000000), (4, 0x03FF000000000000), (5, 0x100000000)] 0x00F3;
      s.gangOk = true ∧ s.trapOk = true ∧ s.issue.checked = false ∧
      s.check (.mset 1 2 15) = none ∧ s.check (.cpyset 2 1 15) = none ∧
      mgOk (BitVec.ofNat 128 ((s.rd 2).toNat * 2 ^ 64 + (s.rd 3).toNat)) = false ∧
      tlOk (BitVec.ofNat 128 ((s.rd 3).toNat * 2 ^ 64 + (s.rd 1).toNat)) = false ∧
      obOk (BitVec.ofNat 128 ((s.rd 2).toNat * 2 ^ 64 + (s.rd 3).toNat)) = false ∧
      s.check (.qcvt 4 5 1 7) = none ∧ s.check (.qcvt 4 1 2 7) = none ∧ s.check (.qrel 7) = none) ∧
    (opened [(1, 1024 * 2 ^ 42), (2, 0xFFFE)] 1).check (.qres 1 2 1 7) = none ∧
    (opened [(1, BitVec.ofNat 64 (5 * 2 ^ 18 + 2 * 2 ^ 22 + 2 * 2 ^ 29 + 256 * 2 ^ 34 + 2 ^ 43))] 1).check (.qprune 0 1 7) = none ∧
    ((base.rd 2).toNat % 2 ^ 32 = 0 ∧ (base.rd 7).toNat % 2 ^ 32 ≠ 0) := by decide +kernel

/-- CopiesAndGathersQueue. -/
theorem witness_CopiesAndGathersQueue : base.wholeOk = true ∧ base.gangOk = true ∧ (base.rd 1).toNat % 64 = 0 := by
  decide +kernel

/-- The base state with registers as given and bin 63 of its die set, its one batch closed or open. -/
def binned (regs : List (Nat × Word)) (closed : Bool) : State :=
  let s := opened regs 0x00F3
  let k : Bin := { Bin.zero with coal := 2, rsize := 8, cap := 4, batches := [
    { id := 0, num := 0, first := 0, count := 1, openedAt := 0, buf := 0x20000, closed := closed, launched := false }] }
  s.setDie 0 { s.die 0 with bins := [(63, k)] }

/-- GraphAndCollectiveWords: a node set with the least and the greatest fields, on a bin all of whose batches are closed
and on one with a batch open; a record for a bin that is set. -/
theorem witness_GraphAndCollectiveWords :
    base.wholeOk = true ∧ (base.rd 1).toNat % 64 = 0 ∧
    (let s := binned [(1, 0x18000), (2, 0xFFFFFFFF8FFF), (3, 0x100001000), (4, 0)] true;
      s.check (.nodeset 1 2 63) = none ∧ s.check (.nodeset 1 3 63) = none ∧
      (s.bin 0 63).batches.all (·.closed) = true ∧ s.check (.nodeput 1 4 3 63) = none) ∧
    (let s := binned [(1, 0x18000), (2, 0xFFFFFFFF8FFF)] false;
      s.check (.nodeset 1 2 63) = none ∧ (s.bin 0 63).batches.all (·.closed) = false) := by decide +kernel

/-- The base state with dies 0 and 1 in its partition and link 0 between them, changed. -/
def linked (f : Link → Link) : State :=
  let s := opened [(1, 0x500), (2, 0xE00), (3, 0x100), (4, 0x26)] 0x00F3
  let s := s.setPart 0 { s.part 0 with dies := 3 }
  s.setLink 0 (f { s.link 0 with boundary := false })

/-- Requests of core 1's contexts. -/
def otherTurns (n : Nat) : List TurnReq :=
  (List.range n).map fun k => { ctx := ⟨0, 1, k⟩, die := 0, target := 5, prio := 0 }

/-- A request this cycle by a context of die 1. -/
def rival : TurnReq := { ctx := ⟨1, 1, 1⟩, die := 1, target := 5, prio := 0, cycle := 0, spare := false, rd := 7 }

/-- What O26 asks of a request beside one of the same cycle: those refused that had been in the queue. -/
def lostTo (s : State) : List TurnReq :=
  let k := s.link 0
  let r : TurnReq := { ctx := c0, die := 0, target := 5, prio := 0, cycle := s.cycle, spare := false, rd := 1 }
  (enterTurns k.before (insertBy (·.die) r k.asked)).2.filter (fun q => q != r && k.queue.contains q)

/-- TurnAndLinkStatus: the count held already, a budget that is spent, eight requests that wait and seven beside the
context's own, a count below 2 and one of 14, a link whose groups turn; and the first number no link has. -/
theorem witness_TurnAndLinkStatus :
    (let s := linked fun k => { k with queue := { ctx := c0, die := 0, target := 9, prio := 0 } :: otherTurns 7 };
      s.gangOk = true ∧ s.check (.turn 1 2 3) = none ∧ s.check (.turn 2 1 3) = none ∧ s.check (.turn 3 1 3) = none ∧
      s.check (.linkst 1 3) = none ∧ ((s.link 0).carrying (upFrom 0 0)).length = 8 ∧ s.spent c0 = false ∧
      ((s.link 0).queue.filter (fun r => r.ctx != c0)).length = 7) ∧
    (let s := linked fun k => { k with queue := otherTurns 8 };
      s.check (.turn 1 2 3) = none ∧ s.spent c0 = false ∧
      ((s.link 0).queue.filter (fun r => r.ctx != c0)).length = 8) ∧
    (let s := linked fun k => { k with up := 0x001F };
      s.check (.turn 1 2 3) = none ∧ ((s.link 0).carrying (upFrom 0 0)).length = 5) ∧
    (let s := onCtx (linked id) fun c => { c with budgetUsed := 8, budgetWin := 0 };
      s.check (.turn 1 2 3) = none ∧ s.spent c0 = true) ∧
    (let s := linked fun k => { k with queue := [rival], asked := [rival], before := [] };
      s.check (.turn 1 2 3) = none ∧ s.spent c0 = false ∧ (s.link 0).asked.any (fun q => q.cycle = s.cycle) = true ∧
      lostTo s = []) ∧
    (let s := linked fun k => { k with queue := otherTurns 7 ++ [rival], asked := [rival], before := otherTurns 7 };
      s.check (.turn 1 2 3) = none ∧ s.spent c0 = false ∧ (s.link 0).asked.any (fun q => q.cycle = s.cycle) = true ∧
      lostTo s = [rival] ∧ rival.ctx.ok = true ∧ rival.ctx ≠ c0) ∧
    (let s := linked id;
      (s.rd 4).toNat % 64 = 38 ∧ s.issue.checked = false ∧ s.trapOk = true ∧ s.inHalf = false) := by decide +kernel

/-! ### States that meet the hypotheses: slots -/

/-- A slot of a format: registers 1, 2, 3 into 4, literal 5 of the bundle (none: zero), rows of shape register 0. -/
def slot (fmt : BitVec 4) : Slot :=
  { fill := 0, lit := 5, md := 0, sat := 0, rm := 0, kind := 0, srcc := 3, srcb := 2, srca := 1, dst := 4, sh := 0, fmt := fmt }

/-- TileBitOperations, TileExchanges, GangOperations; TileIntegers and TileFloats at both ends of their formats. -/
theorem witness_tile_words : base.gangOk = true ∧ (6 ≤ (slot 6).fmt.toNat ∧ (slot 10).fmt.toNat ≤ 10) ∧
    ((slot 0).fmt.toNat < 6 ∧ (slot 5).fmt.toNat < 6) := by decide +kernel

/-- CONFD's element width. -/
theorem witness_GangOperations : fmtWidth (slot 1).fmt.toNat = 32 ∧ fmtWidth (slot 6).fmt.toNat = 32 := by decide +kernel

/-- TileShaping: a conversion with nothing bad and one of trits with a byte of none, the greatest formats its other
words take, and a transpose whose derived shape is legal in every engine. -/
theorem witness_TileShaping :
    (let f := slot 0;
      base.gangOk = true ∧ base.firstLane (fun _ x => firstBadTrit x f (srcA x .a f)) = none) ∧
    (let f : Slot := { slot 0 with md := 11 };
      let s := onEngines base fun e x => if e = 4 then x.setTile .a 1 (BitVec.ofNat 16384 (243 * 256)) else x;
      s.gangOk = true ∧ s.firstLane (fun _ x => firstBadTrit x f (srcA x .a f)) = some (4, 1)) ∧
    ((slot 9).fmt.toNat ≤ 9 ∧ (slot 10).fmt.toNat ≤ 10) ∧
    (let s := onEngines base fun _ x => { x with sh := [(0, 0x33)] };
      s.check (.vtrn .a (slot 0)) = none ∧ (∀ e ∈ s.acting,
        derivedOk (trnShape (s.tileCtx.engine e) (slot 0)).1 (trnShape (s.tileCtx.engine e) (slot 0)).2 = true)) := by
  decide +kernel

/-- Engine scalars: an address, a stride and an index base with its bound and no sentinel; legal shapes. -/
def addressed (a stride : Nat) (s : State) : State := onEngines s fun e x =>
  { x with e := [(1, BitVec.ofNat 64 (a + 32 * e)), (2, BitVec.ofNat 64 stride), (4, BitVec.ofNat 64 a), (5, 0xFFFFFFFF00000200)],
           sh := [(0, 0x00)] }

/-- EngineScalarOperations: the greatest shape an engine scalar may name. -/
theorem witness_EngineScalarOperations : base.gangOk = true ∧
    (onEngines base fun _ x => { x with e := [(2, 0x33)] }).check (.setsh (slot 9)) = none := by decide +kernel

/-- ScratchpadRows: rows at both ends of the allocation, through the window and beside it. -/
theorem witness_ScratchpadRows :
    (let s := addressed 0 32 base;
      s.gangOk = true ∧ s.ownStores s.issue.part (clusterOf s.home.core) = [] ∧ s.check (.lds (slot 0)) = none ∧
      s.check (.sts (slot 0)) = none ∧ s.check (.sts { slot 0 with md := 1 }) = none ∧ (s.core 0 0).written = [] ∧
      (∀ r ∈ s.rowRuns (slot 0) s.activeLanes, r.2.2.2.2.2 + r.2.2.1 ≤ 262144)) ∧
    (onEngines base fun _ x => { x with e := [(1, 262144 - 608), (2, 32)] }).check (.sts (slot 0)) = none := by decide +kernel

/-- A record: 64 blocks of bytes at byte 512, in a format, scale 1. -/
def record (fmt : Nat) : BitVec 128 := BitVec.ofNat 128 (0x3F800000 + 8 * 2 ^ 32 + 64 * 2 ^ 42 + fmt * 2 ^ 56)

/-- The base state with a range of 1024 elements in every engine's record 2. -/
def ranged : State := onEngines base fun _ x => { x with ob := [(2, record 1)], e := [(1, 0)], sh := [(0, 0x00)] }

/-- A map without a key. -/
theorem nget_absent {α : Type} (e : Nat) : ∀ m : List (Nat × α), (∀ x ∈ m, x.1 ≠ e) → nget m e = none
  | [], _ => rfl
  | y :: m, h => by
    have := h y (by simp)
    simp [nget, this, nget_absent e m fun x hx => h x (by simp [hx])]

/-- OsbRanges: no engine has a record of trits. -/
theorem witness_OsbRanges_formats (e : Nat) : obEfmt ((ranged.tileCtx.engine e).record 2) ≠ 11 := by
  have few : ∀ k, k < 16 → obEfmt ((ranged.tileCtx.engine k).record 2) ≠ 11 := by decide +kernel
  have keys : ∀ x ∈ ranged.tileCtx.eng, x.1 < 16 := by decide +kernel
  by_cases h : e < 16
  · exact few e h
  · have none_ := nget_absent e ranged.tileCtx.eng fun x hx => by have := keys x hx; omega
    simp only [Context.engine, ngetD, none_]
    decide

/-- The same with engine 4's range in trits, its first byte one of none. -/
def tritted : State :=
  let s := onEngines base fun e x => { x with ob := [(2, record (if e = 4 then 11 else 1))], e := [(1, 0)], sh := [(0, 0x00)] }
  s.setCore 0 0 { s.core 0 0 with osb := [(4 * 32, BitVec.ofNat 16384 (243 * 2 ^ (8 * 512)))] }

/-- OsbRanges: elements at both ends of a range, in the greatest slot format a load takes, a range of trits whose first
byte holds none, and one active lane that stores. -/
theorem witness_OsbRanges :
    (ranged.gangOk = true ∧ ranged.check (.ldo (slot 9)) = none ∧ (slot 9).fmt.toNat ≤ 9) ∧
    (tritted.gangOk = true ∧ tritted.check (.ldo (slot 9)) = none ∧ 4 ∈ tritted.activeLanes ∧
      obEfmt ((tritted.tileCtx.engine 4).record 2) = 11 ∧
      tritted.rangeNum tritted.home 4 ((tritted.tileCtx.engine 4).record 2) % 256 = 243) ∧
    (let s := onEngines (opened regs0 0x8000) fun _ x => { x with ob := [(2, record 1)], e := [(1, 512)] };
      s.gangOk = true ∧ s.check (.sto (slot 1)) = none ∧ s.activeLanes = [15]) := by decide +kernel

/-- TileAccessesBegin: rows and indexed elements that are aligned, no element of an index that takes part, and one that
does. -/
theorem witness_TileAccessesBegin :
    (let s := addressed 0x20000 32 base;
      let f : Slot := { slot 0 with srca := 4 };
      s.gangOk = true ∧ s.check (.ldg (slot 0)) = none ∧ s.check (.stg (slot 0)) = none ∧ s.check (.gath f) = none ∧
      s.check (.scat f) = none ∧ s.check (.scadd f) = none ∧ s.check (.vatom f) = none ∧
      s.globalPieces (slot 0) s.acting (fun _ _ => []) ≠ [] ∧
      (0, IndexFate.addr 0x20000) ∈ indexElems (s.tileCtx.engine 7) f ∧ (0x20000 : Nat) % (fmtWidth f.fmt.toNat / 8) = 0) ∧
    (let s := onEngines base fun _ x => { x with e := [(4, 0), (5, 0)] };
      let f : Slot := { slot 0 with srca := 4 };
      s.check (.scat f) = none ∧ s.indexPieces f = []) := by decide +kernel

/-! ### States that meet the hypotheses: accesses -/

/-- A bundle of context 0 that has issued. -/
def issuer0 : Issuer := { ctx := c0, spare := false, pc := 0x10000, at_ := 1, inHandler := false }

/-- Access 5, of one piece. -/
def access (op : AccessOp) (p : Piece) : Access :=
  { id := 5, who := p0, by_ := issuer0, path := .scalar, op := op, pieces := [p], acq := none, rel := none, wc := 0,
    dropped := false, dead := [] }

/-- A translated piece of n bytes at 0x18000. -/
def piece (n : Nat) (data : List Byte) : Piece := { Piece.mk' 0x18000 n data with pa := some 0x18000, eng := 2 }

/-- Memory there, and a count in wc0. -/
def stored : State := onCtx { base with mem := base.mem.write 0x18000 (toBytes 8 0x8877665544332291), nextId := 6 }
  fun c => { c with wc := [(0, 1)] }

/-- The same with one access outstanding. -/
def outstanding (a : Access) : State := { stored with accs := [a] }

/-- The piece of an access waits, is translated and may be performed. -/
def soleNow (s : State) (a : Access) (p : Piece) (pa : Nat) : Bool :=
  s.accs.filter (fun b => b.id == 5) == [a] && a.pieces == [p] && p.isOpen && p.pa == some pa && s.mayPerform a p
    && s.partOk a.who && a.index.isNone && !a.dropped

/-- It says so. -/
theorem soleNow_sole {s : State} {a : Access} {p : Piece} {pa : Nat} (h : soleNow s a p pa = true) : s.Sole 5 a p pa := by
  simp only [soleNow, Bool.and_eq_true, beq_iff_eq, Option.isNone_iff_eq_none, Bool.not_eq_true'] at h
  obtain ⟨⟨⟨⟨⟨⟨⟨h1, h2⟩, h3⟩, h4⟩, h5⟩, h6⟩, h7⟩, h8⟩ := h
  exact ⟨h1, h2, h3, h4, h5, h6, h7, h8⟩

def loadReg (rd size : Nat) (sgn : Bool) : Access := access (.loadReg rd size sgn) (piece size [])
def loadTile : Access := { access (.loadTile .b 63) { piece 64 [] with off := 1984 } with path := .tile }
def lkLoad : Access := { access (.lkfetch 65472) (piece 64 []) with who := .ochre 0 0, path := .gather }

/-- LoadsLand: a signed byte into s23 and eight bytes into a register of the issuer's own bank, the last 64 bytes of a
tile register, the last of a local store, a line that is poisoned and a page the host's link does not reach. -/
theorem witness_LoadsLand :
    (let a := loadReg 23 1 true; soleNow (outstanding a) a (piece 1 []) 0x18000 = true ∧
      (outstanding a).readFault 0 0x18000 = none) ∧
    (let a := loadReg 31 8 false; soleNow (outstanding a) a (piece 8 []) 0x18000 = true ∧
      (outstanding a).readFault 0 0x18000 = none ∧
      a.by_.inHandler = ((outstanding a).thread a.who).handler.isSome) ∧
    (let p := { piece 64 [] with off := 1984 }; soleNow (outstanding loadTile) loadTile p 0x18000 = true ∧
      (outstanding loadTile).readFault 0 0x18000 = none ∧ loadTile.by_.ctx.ok = true ∧ ngetD loadTile.dead p.eng 0 = 0 ∧
      p.off + p.len ≤ 2048 ∧ loadTile.who.ctx? = some loadTile.by_.ctx) ∧
    (let s := outstanding lkLoad; soleNow s lkLoad (piece 64 []) 0x18000 = true ∧ s.readFault 0 0x18000 = none) ∧
    (let a := loadReg 7 4 false
     let s := (outstanding a).poisonLine 0x600;
      soleNow s a (piece 4 []) 0x18000 = true ∧ s.readFault 0 0x18000 = some 0x49 ∧ (piece 4 []).helper = false ∧
      a.who.ctx? = some a.by_.ctx ∧ s.hears a.by_.ctx = true ∧ a.failure = none) := by decide +kernel

def storeAcc (n : Nat) : Access := { access .store (piece n (toBytes n 0x0123456789ABCDEF)) with wc := 1 }
def amoAcc (op n : Nat) (cmp : Word) : Access := access (.amo op n 9 cmp) (piece n (toBytes n 0x0123456789ABCDEF))

/-- StoresPerform: a store, every atomic of either size, a compare that holds and one that does not, a store through a
link that is down, and accesses whose piece the home has acknowledged. -/
theorem witness_StoresPerform :
    (stored.mem.wf ∧ soleNow (outstanding (storeAcc 8)) (storeAcc 8) (piece 8 (toBytes 8 0x0123456789ABCDEF)) 0x18000 = true ∧
      (outstanding (storeAcc 8)).cutOff 0 0x18000 = none) ∧
    (∀ op, op < 11 → ∀ n ∈ [4, 8],
      let a := amoAcc op n 0x8877665544332291
      soleNow (outstanding a) a (piece n (toBytes n 0x0123456789ABCDEF)) 0x18000 = true ∧
      (outstanding a).readFault 0 0x18000 = none) ∧
    (let old := stored.mem.read 0x18000 8; ofBytes old = 0x8877665544332291 ∧ ofBytes (old.take 4) = 0x44332291) ∧
    (let q := { piece 4 [] with st := .acked, old := toBytes 4 0x80000000 }; q.st = .acked ∧ q.old.length = q.len) ∧
    (let p := { piece 8 (toBytes 8 1) with st := .early }
     let a := { storeAcc 8 with pieces := [p] };
      soleNow (outstanding a) a p 0x18000 = true ∧ a.op.isLoad = false ∧ p.data.length = p.len ∧ p.took = none) ∧
    (let p := { piece 8 (toBytes 8 1) with pa := some (2 ^ 51) }
     let a := { storeAcc 8 with pieces := [p] };
      soleNow (outstanding a) a p (2 ^ 51) = true ∧ (outstanding a).cutOff 0 (2 ^ 51) = some 0x4B) := by decide +kernel

/-! ### States that meet the hypotheses: units -/

/-- The state with 64 records held for partition 0, whose queue is off. -/
def fullBuffer (s : State) : State :=
  s.setPart 0 { s.part 0 with holding := List.replicate 64 (s.blankRecord 0x49 3 0) }

/-- Core 0 of die 0 changed, 100 cycles on. -/
def onCore (f : Core → Core) : State :=
  let s : State := { base with time := 8000 }
  s.setCore 0 0 (f (s.core 0 0))

/-- A matrix command of two K-steps of one FP64 product in engine 4, into accumulator 7. -/
def matrixCmd (running : Bool) (count : Word) (mg : BitVec 128) : MatrixCmd :=
  { id := 3, by_ := issuer0, tern := false, sa := count, sb := 8, mg := mg, am := 0x0010, obs := [(4, (0, 0))], predicted := 0,
    running := running, step := 0, stepAt := 0, flags := 0 }
/-- Its record: A at byte 0, B at byte 64, both FP64 of one row and one column. -/
def mg64 : BitVec 128 := BitVec.ofNat 128 (64 * 2 ^ 18 + 7 * 2 ^ 76)
/-- A record of a pair no command takes: FP64 by FP32. -/
def mgBad : BitVec 128 := BitVec.ofNat 128 (2 ^ 68)
def matrixState (m : MatrixCmd) : State := onCore fun k => { k with
  matq := [m], spad := [(4 * 128, BitVec.ofNat 16384 (0x4008000000000000 + 0x4000000000000000 * 2 ^ 512))] }

/-- Its source B in the core beside it. -/
def mgWin : BitVec 128 := BitVec.ofNat 128 (64 * 2 ^ 18 + 2 * 2 ^ 74 + 7 * 2 ^ 76 + 2 ^ 105)
/-- A runs off the scratchpad in the second K-step. -/
def mgEdge : BitVec 128 := BitVec.ofNat 128 (262136 + 64 * 2 ^ 18 + 7 * 2 ^ 76)
/-- A mate of the gang in the core beside it. -/
def mated (s : State) : State :=
  let x := s.ctx c0
  let r := { x.lrec with gsize := 2 }
  (s.setCtx c0 { x with lrec := r }).setCtx ⟨0, 1, 0⟩ { x with lrec := r, prog := { x.prog with mem := 1 } }
/-- A command of engines 4 and 15 that runs, at a K-step since a time. -/
def pairCmd (mg : BitVec 128) (step stepAt : Nat) (sent : Bool) : MatrixCmd :=
  { matrixCmd true 2 mg with am := 0x8010, obs := [(4, (0, 0)), (15, (0, 0))], step := step, stepAt := stepAt, sent := sent }

/-- What its K-step gives: whether its cycles are over in every engine, or its fault's code. -/
def stepEnds (s : State) (m : MatrixCmd) : Option Bool ⊕ Nat := match s.stepAll m m.step m.engines with
  | .ok l => .inl (if l.map StepOut.eng = m.engines then some (l.all fun o => m.stepAt + 80 * o.cycles ≤ s.time) else none)
  | .error f => .inr f.1.code.toNat

/-- UnitsRun, the matrix engine: a start that passes its checks, one without engines, one that fails and one whose fault
no buffer takes; K-steps of two engines: one whose sectors are to be sent for, one that waits for them, one that is the
last and one that is not, one whose cycles are not over and one that fails. -/
theorem witness_UnitsRun_matrix :
    (let s := matrixState (matrixCmd false 2 mg64);
      (s.core 0 0).matq = [matrixCmd false 2 mg64] ∧ (matrixCmd false 2 mg64).engines ≠ [] ∧
      s.startFault (matrixCmd false 2 mg64) = none) ∧
    ({ matrixCmd false 2 mg64 with obs := [] } : MatrixCmd).engines = [] ∧
    (let s := matrixState (matrixCmd false 2 mgBad);
      s.startFault (matrixCmd false 2 mgBad) = some (geometry 1 4) ∧ s.hears issuer0.ctx = true) ∧
    (let s := fullBuffer (onCtx (matrixState (matrixCmd false 2 mgBad)) fun c => { c with st := .draining });
      (s.core 0 0).matq = [matrixCmd false 2 mgBad] ∧ s.startFault (matrixCmd false 2 mgBad) = some (geometry 1 4) ∧
      (s.ctx c0).st = .draining ∧ s.partN 0 < 4 ∧ 64 ≤ (s.part (s.partN 0)).holding.length) ∧
    (let m := pairCmd mgWin 0 0 false; let s := mated (matrixState m);
      (s.core 0 0).matq = [m] ∧ m.running = true ∧ m.by_.ctx.ok = true ∧ m.sent = false ∧ (s.stepPieces m 0).length = 2) ∧
    (let m := pairCmd mgWin 0 0 true; let s := mated (matrixState m);
      let t := s.setIndigo 0 0 { Indigo.zero with waiting := windowTransfers 3 p0 0 false 0 (s.stepPieces m 0) };
      t.onWay 0 (clusterOf (t.homeOf c0).core) 3 = true ∧ s.onWay 0 (clusterOf (s.homeOf c0).core) 3 = false ∧
      stepEnds s m = .inl (some true)) ∧
    (∀ n ∈ [0, 1], let m := pairCmd mg64 n 0 false; let s := matrixState m;
      s.stepPieces m n = [] ∧ stepEnds s m = .inl (some true) ∧ m.stepAt ≤ s.time ∧ m.count = 2) ∧
    (let m := pairCmd mg64 0 8000 false; stepEnds (matrixState m) m = .inl (some false)) ∧
    (let m := pairCmd mgEdge 1 0 false; let s := matrixState m;
      s.stepPieces m 1 = [] ∧ stepEnds s m = .inr 0x61 ∧ s.hears c0 = true) := by decide +kernel

/-- A command to Mordant, for engines 1 and 4 or engine 4. -/
def mordantCmd (op : MordantOp) (obs : List (Nat × BitVec 128)) : MordantCmd :=
  { id := 3, by_ := issuer0, op := op, ob := 6, sa := 0, sb := 0, am := 0x0012, obs := obs, phase := 0, gens := [], flags := 0 }
def mordantState (m : MordantCmd) : State := onCore fun k => { k with morq := [m] }

/-- A state whose die holds the page as one that may be written too. -/
def writable (s : State) : State := s.setDie 0 { s.die 0 with l2tlb := [{ codeEntry with leaf := 0x1001F }] }

/-- A record of bytes at byte 512 with block scales 2,048 bytes on, TSCALE as given. -/
def blockRecord (tscale : Nat) : BitVec 128 :=
  BitVec.ofNat 128 (tscale + 8 * 2 ^ 32 + 64 * 2 ^ 42 + 8 * 2 ^ 56 + 2 ^ 60 + 2048 * 2 ^ 64)
/-- One that ends outside every allocation. -/
def badRecord : BitVec 128 := BitVec.ofNat 128 (0x3F800000 + 1023 * 2 ^ 32 + 64 * 2 ^ 42 + 8 * 2 ^ 56)
/-- A QCVT of n FP32 values to bytes, from a place, at a block. -/
def convert (src n sa phase : Nat) (obs : List (Nat × BitVec 128)) : MordantCmd :=
  { mordantCmd (.qcvt src) obs with sa := BitVec.ofNat 64 sa, sb := BitVec.ofNat 64 (n + 2 ^ 32), phase := phase }

/-- UnitsRun, Mordant: QREL, QRES and QRES.z of valid ranges, and of one that is not; a command without engines. -/
theorem witness_UnitsRun_mordant :
    (let m := mordantCmd .qrel [(1, record 1), (4, record 2)];
      ((mordantState m).core 0 0).morq = [m] ∧ m.engines ≠ [] ∧ m.by_.ctx.ok = true ∧ m.op = .qrel) ∧
    (mordantCmd .qrel []).engines = [] ∧
    (let m := mordantCmd (.qres false) [(1, record 1)];
      ((mordantState m).core 0 0).morq = [m] ∧ m.engines ≠ [] ∧ m.op = .qres false) ∧
    (let m := mordantCmd (.qres true) [(1, record 1), (15, record 1)]; let s := mordantState m;
      (s.core 0 0).morq = [m] ∧ m.engines ≠ [] ∧ m.op = .qres true ∧
      (∀ e ∈ m.engines, obValid (m.record e) (s.ctx c0).osbSize = true) ∧
      (s.ctx c0).osbBase + (s.ctx c0).osbSize ≤ 65536 ∧ ∀ g ∈ m.engines, g < 16) ∧
    (let m := mordantCmd (.qres true) [(1, record 1), (15, badRecord)]; let s := mordantState m;
      m.engines.find? (fun e => !obValid (m.record e) (s.ctx c0).osbSize) = some 15 ∧ s.hears c0 = true) := by decide +kernel

/-- UnitsRun, QCVT: the first of two engines' blocks and the last, with a tensor scale of zero too; one without values; one
of too many; a record that is not valid; a source that cannot be read, and one that can. -/
theorem witness_UnitsRun_qcvt :
    (∀ x ∈ [(0, (1, 0), 0x3F800000), (3, (4, 1), 0x3F800000), (3, (4, 1), 0)],
      let m := convert 0 20 0 x.1 [(1, blockRecord x.2.2), (4, blockRecord x.2.2)]; let s := mordantState m;
      (s.core 0 0).morq = [m] ∧ s.qcvtStart m 0 = none ∧ (s.qcvtItems m)[m.phase]? = some x.2.1 ∧
      obValid (m.record x.2.1.1) (s.ctx c0).osbSize = true ∧ qcvtCount m.sb ≤ obCount (m.record x.2.1.1)) ∧
    (let m := convert 0 0 0 0 [(1, blockRecord 1)]; let s := mordantState m;
      s.qcvtStart m 0 = none ∧ (s.qcvtItems m)[m.phase]? = none) ∧
    (let m := convert 0 2049 0 0 [(1, blockRecord 1)]; let s := mordantState m;
      s.qcvtStart m 0 = some ⟨0x22, 2048, 1⟩ ∧ s.hears c0 = true) ∧
    (let m := convert 0 20 0 2 [(1, blockRecord 1), (4, badRecord)]; let s := mordantState m;
      (s.qcvtItems m)[m.phase]? = some (4, 0) ∧ obValid (m.record 4) (s.ctx c0).osbSize = false ∧ s.hears c0 = true) ∧
    (let m := convert 1 20 0x18000 0 [(1, blockRecord 1)]; let s := writable (mordantState m); let t := s.poisonLine 0x601;
      s.qcvtStart m 1 = none ∧ (s.qcvtItems m)[m.phase]? = some (1, 0) ∧
      (match (s.qcvtBytes 0 0 m 1 1 0).1 with | .bytes l => l.length == 64 | _ => false) = true ∧
      (match (t.qcvtBytes 0 0 m 1 1 0).1 with | .fail c va => c == 0x49 && va == 0x18040 | _ => false) = true ∧
      t.hears c0 = true) := by decide +kernel

/-- A QPRUNE of four by eight values, two of four kept, in a phase, to a place. -/
def prune (phase dst : Nat) (obs : List (Nat × BitVec 128)) : MordantCmd :=
  { mordantCmd .qprune obs with
    sb := BitVec.ofNat 64 (dst + 2 * 2 ^ 18 + 2 * 2 ^ 22 + 2 * 2 ^ 29 + 2 ^ 33 + 4 * 2 ^ 34 + 8 * 2 ^ 43), phase := phase }

/-- UnitsRun, QPRUNE: its regions, its headers, and a start that fails. -/
theorem witness_UnitsRun_qprune :
    (∀ n ∈ [0, 1], let m := prune n 0x100 [(1, record 1), (15, record 1)]; let s := mordantState m;
      (s.core 0 0).morq = [m] ∧ (pruneOf m.sb).ok = true ∧ (∀ e ∈ m.engines, e < 16) ∧ m.engines.Nodup ∧
      (s.ctx c0).spadBase + (s.ctx c0).spadSize ≤ 262144 ∧ (s.core 0 0).written = [] ∧ s.qpruneStart m = none ∧
      (pruneOf m.sb).dst + ((pruneOf m.sb).header false 0).length ≤ (s.ctx c0).spadSize) ∧
    (let m := prune 0 0x100 [(1, record 1), (15, badRecord)]; let s := mordantState m;
      s.qpruneStart m = some ⟨0x65, 6, 15⟩ ∧ s.hears c0 = true) := by decide +kernel

/-- A copy of a gang: four bytes, eight apart, to four that follow each other. -/
def copyCmd (dst : BitVec 128) (cont : Option Word) : CopyCmd :=
  { id := 3, by_ := issuer0, sa := 0x18000, sb := 0x18030, src := BitVec.ofNat 128 (3 * 2 ^ 20 + 2 ^ 47), dst := dst,
    am := 0x0012, gang := true, cont := cont, obs := [], started := false }
def copyState (m : CopyCmd) (running : Bool) : State :=
  let s := writable <| onCore fun k => { k with strq := if running then [] else [.copy m], copies := if running then [m] else [] }
  onCtx { s with mem := s.mem.write 0x18000 (toBytes 32 (0xAA + 0xBB * 2 ^ 64 + 0xCC * 2 ^ 128 + 0xDD * 2 ^ 192)) } fun c =>
    { c with wc := [(2, 1)] }

/-- A copy of one engine's four bytes that runs. -/
def runningCopy (cont : Option Word) : CopyCmd := { copyCmd 0x30 cont with started := true }
/-- Copies of engines 1 and 4 that run, from one base to another under layouts, their records 0 and 6. -/
def engineCopy (sa sb : Nat) (src dst : Nat) : CopyCmd :=
  { copyCmd 0 none with
    sa := BitVec.ofNat 64 sa, sb := BitVec.ofNat 64 sb, src := BitVec.ofNat 128 src, dst := BitVec.ofNat 128 dst
    gang := false, obs := [(1, (record 1, record 1)), (4, (record 1, record 1))], started := true }

/-- What its moves are: how many each engine has, whether one waits, and the fault's code. -/
def movesOf (s : State) (m : CopyCmd) : List (Nat × Bool × Option (BitVec 8)) :=
  (s.allMoves 0 0 m).1.map fun x => (x.moves.length, x.waits, x.fault.map (·.code))
/-- All of them. -/
def allOf (s : State) (m : CopyCmd) : List Move := (s.allMoves 0 0 m).1.flatMap (·.moves)
/-- Their places are places of memory or inside the program's own allocations. -/
def inOwn (s : State) (l : List Move) : Bool :=
  let x := s.ctx c0
  let inside (p : CopyPlace) : Bool := match p with
    | .mem _ => true
    | .spad r e off => r == c0 && decide (e < 16 ∧ off < x.spadSize)
    | .osb r e off => r == c0 && decide (e < 16 ∧ off < x.osbSize)
  l.all fun v => inside v.dst && (match v.src with | .place p => inside p | .held _ _ => true)
/-- What every clause about a running copy asks. -/
def copyReady (m : CopyCmd) (s : State) : Bool :=
  let x := s.ctx c0
  (s.core 0 0).copies == [m] && m.by_.ctx == c0 && c0.ok && !s.copyOnWay m && decide (x.spadBase + x.spadSize ≤ 262144)
    && decide (x.osbBase + x.osbSize ≤ 65536) && (s.core 0 0).written.isEmpty

/-- Four bytes that follow each other, at each engine's own place a distance away; the same in OSB range 6. -/
def runOf (kind estr : Nat) : Nat := kind + 3 * 2 ^ 4 + estr * 2 ^ 100 + 6 * 2 ^ 124

/-- StreamEngineRuns, copies: one that starts, one without engines and one of unequal sides; a gang's copy in memory that
moves all its bytes and posts a continuation, moves two of them, or reads three ahead; a page not held. -/
theorem witness_StreamEngineRuns_copies :
    (let m := copyCmd 0x30 none; let s := copyState m false;
      (s.core 0 0).strq = [.copy m] ∧ m.engines ≠ [] ∧ s.copyFault m = none) ∧
    ({ engineCopy 0 0 0 0 with obs := [] } : CopyCmd).engines = [] ∧
    (let m := copyCmd 0x40 none; let s := copyState m false;
      (s.core 0 0).strq = [.copy m] ∧ s.copyFault m = some { code := 0x81, val := 0x400000005, eng := 0 } ∧
      s.hears m.by_.ctx = true) ∧
    (let m := runningCopy (some 0x10040); let s := copyState m true;
      copyReady m s = true ∧ s.mem.wf ∧ movesOf s m = [(4, false, none)] ∧ inOwn s (allOf s m) = true ∧
      mayRace (s.allMoves 0 0 m).1 = false ∧ tlKind m.dst ≠ 2 ∧
      0 ∈ m.engines ∧ (s.nextMoves 0 0 m 0 (m.whole 0 2)).1.moves.length = 2 ∧
      (s.nextMoves 0 0 m 0 (m.whole 0 2)).1.waits = false ∧ (s.readAhead 0 0 m 0 3).1.length = 3) ∧
    (let m := { runningCopy none with sa := 0x58000 }; let s := copyState m true;
      copyReady m s = true ∧ tlKind m.src ≠ 2 ∧ movesOf s m = [(0, true, none)]) := by decide +kernel

/-- The same, engine by engine: from the scratchpad to OSB ranges, and to one byte past the scratchpad's end. -/
theorem witness_StreamEngineRuns_engines :
    (let m := engineCopy 0x100 0x20 (runOf 1 0) (runOf 3 0); let s := copyState m true;
      copyReady m s = true ∧ s.mem.wf ∧ movesOf s m = [(4, false, none), (4, false, none)] ∧ inOwn s (allOf s m) = true ∧
      mayRace (s.allMoves 0 0 m).1 = false ∧ 4 ∈ m.engines ∧ (s.nextMoves 0 0 m 4 (m.whole 4 1)).1.moves.length = 4) ∧
    (let m := engineCopy 0x18000 (262144 - 3) (runOf 0 16) (runOf 1 0); let s := copyState m true;
      copyReady m s = true ∧ movesOf s m = [(3, false, some 0x82), (3, false, some 0x82)] ∧ inOwn s (allOf s m) = true ∧
      mayRace (s.allMoves 0 0 m).1 = false ∧ s.hears c0 = true) := by decide +kernel
/-- The same: to the same bytes of memory, and through the window to the core beside and to the own one. -/
theorem witness_StreamEngineRuns_overlap :
    (let m := engineCopy 0x18000 0x18080 (runOf 0 16) (runOf 0 0); let s := copyState m true;
      copyReady m s = true ∧ movesOf s m = [(4, false, none), (4, false, none)] ∧ mayRace (s.allMoves 0 0 m).1 = true ∧
      (allOf s m)[7]? = some { eng := 4, t := 3, src := .place (.mem (0x18000 + 67)), dst := .mem 0x18083 } ∧
      (∀ w ∈ allOf s m, w.eng ≤ 4) ∧ (allOf s m).length = 8 ∧
      (∀ w ∈ allOf s m, w.dst ≠ .mem (0x18000 + 67))) ∧
    (∀ pos ∈ [1, 0], let m := engineCopy 0x100 (pos * 2 ^ 22 + 2 ^ 18) (runOf 1 0) (runOf 2 0x1000); let s := mated (copyState m true);
      copyReady m s = true ∧ movesOf s m = [(4, false, none), (4, false, none)] ∧ tlKind m.dst = 2 ∧
      mayRace (s.allMoves 0 0 m).1 = false ∧ (s.allMoves 0 0 m).2.copyOnWay m = false ∧
      ((s.carried (allOf s m)).filter (fun y => s.remote m y.2.1)).length = 8 * pos) := by decide +kernel

/-- A ring of four slots of 64 bytes at 0x18800, its descriptor at 0x18040. -/
def ringCmd : RingCmd := { id := 3, by_ := issuer0, prod := false, sys := false, desc := 0x18040, base := 0x19000, tl := 0x3F0 }
def ringBytesOf (p c nrem : Nat) : List Byte :=
  toBytes 8 p ++ toBytes 8 c ++ toBytes 4 4 ++ toBytes 4 64 ++ toBytes 8 0x18800 ++ toBytes 8 0x19000 ++ toBytes 4 nrem
    ++ toBytes 4 0 ++ toBytes 16 0
def servedState (p c nrem : Nat) : State :=
  let s := writable <| onCore fun k => { k with rings := [ringCmd] }
  { s with mem := s.mem.write 0x18040 (ringBytesOf p c nrem) }

/-- The same with an earlier copy that has still to read the slot. -/
def blockedRing : State :=
  let s := servedState 5 4 2
  s.setCore 0 0 { s.core 0 0 with copies := [{ runningCopy none with id := 1, sa := 0x18800 }] }

/-- StreamEngineRuns, rings: no transfer left, a slot to serve, one behind an earlier copy, no slot that is full. -/
theorem witness_StreamEngineRuns_rings :
    (let s := servedState 5 4 0; (s.core 0 0).rings = [ringCmd] ∧
      (s.unitRead 0 (.ring 0 0 3) 0x18040 64).1 = .bytes (ringBytesOf 5 4 0) ∧ ringNrem (ringBytesOf 5 4 0) = 0) ∧
    (let s := servedState 5 4 2; (s.core 0 0).rings = [ringCmd] ∧
      (s.unitRead 0 (.ring 0 0 3) 0x18040 64).1 = .bytes (ringBytesOf 5 4 2) ∧ ringNrem (ringBytesOf 5 4 2) = 2 ∧
      (ringOf (ringBytesOf 5 4 2)).slot false = some 0x18800 ∧
      (s.unitRead 0 (.ring 0 0 3) 0x18040 64).2.slotBehind 0 0 ringCmd (ringBytesOf 5 4 2) = false) ∧
    ((blockedRing.core 0 0).rings = [ringCmd] ∧
      (blockedRing.unitRead 0 (.ring 0 0 3) 0x18040 64).1 = .bytes (ringBytesOf 5 4 2) ∧
      (blockedRing.unitRead 0 (.ring 0 0 3) 0x18040 64).2.slotBehind 0 0 ringCmd (ringBytesOf 5 4 2) = true) ∧
    (let s := servedState 4 4 2; (s.core 0 0).rings = [ringCmd] ∧
      (s.unitRead 0 (.ring 0 0 3) 0x18040 64).1 = .bytes (ringBytesOf 4 4 2) ∧ ringNrem (ringBytesOf 4 4 2) = 2 ∧
      (ringOf (ringBytesOf 4 4 2)).slot false = none) := by decide +kernel

/-- A gather request whose record stands at 0x18040. -/
def gather : GatherReq := { id := 2, by_ := issuer0, eng := 5, addr := 0x18040, dst := 0, ob := none, obN := 0 }

/-- The die's queue with it, Ochre cores 0 to n - 1 at work. -/
def gatherState (n : Nat) : State :=
  let s := onCtx { base with mem := base.mem.write 0x18040 (toBytes 8 0x10000 ++ toBytes 8 7 ++ toBytes 40 0 ++ toBytes 8 9) } fun c =>
    { c with wc := [(3, 2)] }
  s.setDie 0 { s.die 0 with gq := [gather], ochre := (List.range n).map fun i => (i, { Ochre.zero with req := some gather }) }

/-- A thread that has ended. -/
def endedState (lasts : Nat) (fail : Option (BitVec 8)) : State :=
  let s := gatherState 0
  s.setOchre 0 15 { Ochre.zero with req := some gather, done := true, lasts := lasts, fail := fail,
                                    thread := { Thread.zero with pc := 0x10040 } }

/-- A request whose OSB record is not valid. -/
def gatherOb : GatherReq := { gather with ob := some (BitVec.allOnes 128), obN := 6 }
def gatherObState : State := let s := gatherState 0; s.setDie 0 { s.die 0 with gq := [gatherOb] }

/-- GatherThreads: a request that finds core 0 idle and one that finds core 15 alone; one whose OSB record is not valid;
threads that end with one .last, with none, with a code of their own and at their start; one whose record no buffer takes. -/
theorem witness_GatherThreads :
    (∀ n ∈ [0, 15], let s := gatherState n;
      (s.die 0).gq = [gather] ∧ (s.ochre 0 n).req = none ∧ (∀ j, j < n → (s.ochre 0 j).req ≠ none) ∧
      let x := s.lookupThread 0 (s.partN 0) gather.addr.toNat .read
      let p : Mapped := { pa := 0x18040, cached := true, tso := false }
      x.1 = .hit p ∧ x.2.unitHeld (.ochre 0 n) .read p gather.addr.toNat 64 = false ∧
      x.2.readFault (s.partN 0) 0x18040 = none) ∧
    ((gatherObState.die 0).gq = [gatherOb] ∧ (gatherObState.ochre 0 0).req = none ∧ gatherOb.ob = some (BitVec.allOnes 128) ∧
      obValid (BitVec.allOnes 128) (gatherObState.ctx gatherOb.by_.ctx).osbSize = false) ∧
    (let s := fullBuffer (endedState 0 (some 0x41)); let g := gather;
      (s.ochre 0 15).req = some g ∧ (s.ochre 0 15).done = true ∧ s.accs = [] ∧ (s.ochre 0 15).fail = some 0x41 ∧
      g.by_.ctx.ok = true ∧ (s.ctx g.by_.ctx).st ≠ .empty ∧ s.partN g.by_.ctx.die < 4 ∧
      64 ≤ (s.part (s.partN g.by_.ctx.die)).holding.length) ∧
    (∀ p ∈ [(1, none), (0, none), (2, none), (0, some (0x41 : BitVec 8)), (0, some 0x65), (0, some 0x87)], let s := endedState p.1 p.2;
      (s.ochre 0 15).req = some gather ∧ (s.ochre 0 15).done = true ∧ s.accs = [] ∧ s.hears gather.by_.ctx = true) := by
  decide +kernel

/-- Page tables at 0x30000: region 2 may be read and written, region 3 only read. The host's link is up. -/
def paged : State :=
  let m := base.mem.write 0x30000 (toBytes 8 0x31001) |>.write 0x31000 (toBytes 8 0x32001) |>.write 0x32000 (toBytes 8 0x33001)
    |>.write 0x33000 (toBytes 8 0x34001) |>.write 0x34010 (toBytes 8 0x2001F) |>.write 0x34018 (toBytes 8 0x30017)
  let s : State := { base with mem := m }
  s.setPart 0 { s.part 0 with ptrootV := true, ptroot := 0x30, pcieUp := true }

/-- A copy that waits for a page to write. -/
def waiter (region : Nat) : MergeWaiter :=
  { who := .stream 0 0 3, kind := .write, va := region * 65536 + 0x40, helper := false }
/-- Its merge entry: number 255 of die 0, in its 7th use. -/
def mergeOf (region : Nat) (faulted : Bool) : MergeEntry :=
  { region := region, part := 0, list := [waiter region], faulted := faulted, code := if faulted then 0x46 else 0, use := 7 }
def mergeState (region : Nat) (faulted : Bool) : State :=
  paged.setDie 0 { paged.die 0 with merge := [(255, mergeOf region faulted)] }
/-- The token that names it, and one of an earlier use. -/
def token : BitVec 32 := 0x00FF0007
def oldToken : BitVec 32 := 0x00FF0006

/-- Whether a walk passes a write. -/
def passesWrite (s : State) (region : Nat) : Option (BitVec 8) := walkCode (s.walk 0 (region * 65536)) .write

/-- A miss that waits, entries 0 to n - 1 in use. -/
def missState (n : Nat) : State :=
  paged.setDie 0 { paged.die 0 with
    misses := [(0, 2, waiter 2)], merge := (List.range n).map fun i => (i, mergeOf (100 + i) false) }

/-- WalksAndAnswers: walks that pass and that fail, of an entry that waits and of one a token names; a seventeenth walk; a token that is stale
and a reserved bit; a miss that takes the first entry and one that takes the last; an invalidation of all, and its end. -/
theorem witness_WalksAndAnswers :
    (nget ((mergeState 2 false).die 0).merge 255 = some (mergeOf 2 false) ∧ passesWrite (mergeState 2 false) 2 = none ∧
      (mergeState 2 false).walks 0 (mergeOf 2 false) = true ∧ (mergeState 3 false).walks 0 (mergeOf 3 false) = true ∧
      (let s := paged.setDie 0 { paged.die 0 with
         merge := (List.range 17).map fun i => (i, { mergeOf (100 + i) false with started := i }) };
        s.walks 0 { mergeOf 116 false with started := 16 } = false ∧
        nget (s.die 0).merge 16 = some { mergeOf 116 false with started := 16 }) ∧
      passesWrite (mergeState 3 false) 3 = some 0x46 ∧ passesWrite (mergeState 4 false) 4 = some 0x41) ∧
    (∀ r ∈ [2, 3], let s := mergeState r true;
      s.bar0Open 0 false = true ∧ s.answered 0 token = some (0, 255, mergeOf r true) ∧ (mergeOf r true).faulted = true) ∧
    ((mergeState 2 true).answered 0 oldToken = none ∧ (0x80000000 : Word).extractLsb' 1 31 ≠ 0) ∧
    (∀ n ∈ [0, 255], let s := missState n;
      (s.die 0).misses = [(0, 2, waiter 2)] ∧ nget (s.die 0).merge n = none ∧ (∀ i, i < n → nget (s.die 0).merge i ≠ none) ∧
      tlbFind (s.die 0).l2tlb (waiter 2).va = none ∧ (waiter 2).va / 65536 = 2 ∧
      (s.die 0).merge.find? (fun x => x.2.region == (waiter 2).va / 65536 && x.2.part == 0) = none) ∧
    (paged.bar0Open 0 false = true ∧ (0x500 : Word).extractLsb' 8 2 = 1 ∧ (0x500 : Word).getLsbD 10 = true ∧
      (paged.part 0).tlbDone = true) ∧
    (let s := paged.setPart 0 { paged.part 0 with tlbDone := false };
      (s.part 0).tlbDone = false ∧ (s.part 0).flush = [] ∧ s.accs = [] ∧ s.collCovered 0 = false) ∧
    (let s : State := { paged.setPart 0 { paged.part 0 with tlbDone := false, tlbScope := 1, flush := [(p0, .scalar, 1)] } with
       accs := [storeAcc 8] };
      (s.part 0).tlbDone = false ∧ (s.part 0).flush ≠ [] ∧ s.partN p0.die = 0 ∧ (s.part 0).usesCovered (storeAcc 8) = true) :=
  by decide +kernel

/-! ### States that meet the hypotheses: scheduling -/

/-- Context 0 of core 0 READY at a bundle of one NOP. -/
def ready : State := State.reset.withFetchWord 32 0xFC000000
/-- The same program in context 2 as well, of a priority and stamp of its own. -/
def two (prio stamp : Nat) : State :=
  ready.setCtx ⟨0, 0, 2⟩ { ready.ctx c0 with prog := { ProgId.zero with prio := prio }, stamp := stamp }
/-- Its die's cores may issue, none is issuing, and none has in this cycle. -/
def calm (s : State) : Bool := s.gateOpen 0 && !s.used 0 0 0 && !s.used 0 0 1 &&
  (List.range 8).all fun x => (s.ctx ⟨0, 0, x⟩).st != .issuing
/-- A context that competes with no streak to end. -/
def fresh (s : State) (x : Nat) : Bool :=
  s.candidate (.gang 0 0 x false) && decide ((s.ctx ⟨0, 0, x⟩).starve < 16) && decide ((s.ctx ⟨0, 0, x⟩).streak < 8)
/-- The others cannot issue. -/
def others (s : State) (l : List Nat) : Bool := (List.range 8).all fun x => l.contains x || !s.canIssue (.gang 0 0 x false)

/-- A launch of two programs, both placed. -/
def launch : Launch :=
  { seq := 1, lrec := { LaunchRecord.zero with nprog := 2 }, recAddr := 0, queue := 0, bin := none, prio := 0, next := 2,
    back := [], retired := 0, saved := [], lastDie := none, waitFrom := 0, starved := false, entryAddr := 0, imageEntry := [] }
/-- One of its programs in context 7, in a state. -/
def placed (st : CtxState) : State :=
  let s := { ready with mem := ready.mem.write 0x18000 (toBytes 8 0x10000) }
  (s.setPart 0 { s.part 0 with launches := [launch] }).setCtx ⟨0, 0, 7⟩
    { Context.zero with st := st, prog := { ProgId.zero with seq := 1 }, lrec := launch.lrec, entry := 0x18000 }

/-- The first line of its code can be read. -/
def readsCode (s : State) : Bool :=
  match ((s.startReads ⟨0, 0, 7⟩ launch).2.2.2.startCode ⟨0, 0, 7⟩ 0x10000).1 with
  | .bytes _ => true
  | _ => false

/-- It is poisoned. -/
def badCode : Bool :=
  let s := (placed .starting).poisonLine 0x400
  match ((s.startReads ⟨0, 0, 7⟩ launch).2.2.2.startCode ⟨0, 0, 7⟩ 0x10000).1 with
  | .fail c va => c == 0x49 && va == 0x10000
  | _ => false

/-- Bank 0 has issued for 4,096 cycles, bank 1 is RESIDENT. -/
def switching : State :=
  let s : State := { ready with time := 80 * 4096 }
  (s.setCore 0 0 { s.core 0 0 with heldFrom := [(0, 0)] }).setCtx ⟨0, 0, 1⟩ { Context.zero with st := .resident }

/-- ContextsScheduled: one candidate; two, by priority and by stamp either way; a quantum that ends; a program that starts;
a program that retires and is not the last of its launch. -/
theorem witness_ContextsScheduled :
    (calm ready = true ∧ fresh ready 0 = true ∧ others ready [0] = true) ∧
    (∀ s ∈ [two 0 0, two 1 9], calm s = true ∧ fresh s 0 = true ∧ fresh s 2 = true ∧ others s [0, 2] = true) ∧
    ((two 1 9).ctx c0).prog.prio < ((two 1 9).ctx ⟨0, 0, 2⟩).prog.prio ∧
    (ngetD (switching.core 0 0).issuing 0 0 = 0 ∧ (switching.ctx c0).st = .ready ∧
      (switching.ctx ⟨0, 0, 1⟩).st = .resident ∧
      ngetD (switching.core 0 0).heldFrom 0 switching.cycle + 4096 ≤ switching.cycle) ∧
    (let s := placed .starting; let c : CtxRef := ⟨0, 0, 7⟩;
      (s.ctx c).st = .starting ∧ (s.ctx c).save = .none ∧ s.launchOf (s.ctx c).prog = some launch ∧
      (s.startReads c launch).1 = .bytes (toBytes 8 0x10000) ∧ (s.startReads c launch).2.1 = .bytes [] ∧
      (s.startReads c launch).2.2.1 = .bytes [] ∧ (s.ctx c).inbox = [] ∧ readsCode s = true ∧ badCode = true) ∧
    (let s := placed .draining; let c : CtxRef := ⟨0, 0, 7⟩;
      (s.ctx c).st = .draining ∧ s.drained c = true ∧
      s.retiring (s.ctx c).prog.part (fun r => r.before c) = false ∧ (s.part 0).launches = [launch] ∧ launch.seq = (s.ctx c).prog.seq ∧
      launch.retired + 1 < launch.lrec.nprog ∧ launch.next = launch.lrec.nprog ∧ launch.back = [] ∧ launch.saved = []) := by
  decide +kernel

/-! ### States that meet the hypotheses: saving -/

/-- A cause of a kind, raised in cycle 0. -/
def cause (kind : BitVec 3) : Cause :=
  { code := 0x41, kind := kind, val := 0x18000, eng := 3, pc := 0x10000, at_ := 1, inHandler := false, time := 0 }

/-- A program that declares one engine and nothing else, in context 0, and a save slot at 0x1000000. -/
def slotted : State :=
  let s := paged.setPart 0 { paged.part 0 with saveCnt := 1, saveBase := 1 }
  let s := s.setDie 0 { s.die 0 with l2tlb := [{ vbase := 0x1000000, size := 0x1000000, leaf := 0x0100001F }] }
  let s := onCtx s fun c => { c with
    lrec := { LaunchRecord.zero with lanes := 1, gsize := 1, nprog := 1 }, prebound := 1024, eng := [],
    prog := { ProgId.zero with seq := 1 } }
  { s with issue := Issue.zero }

/-- It is held for a hard save. -/
def heldState : State := onCtx slotted fun c => { c with save := .holding true 0, want := some .driver }

/-- Its record can be written. -/
def recordMaps (s : State) : Bool :=
  match s.mapRecords [(c0, true, 0)] with
  | (.ok [_], _) => true
  | _ => false

/-- A launch that waits for core 0, all of which context 0 has held in a YIELD for 21 µs. -/
def crowded : State :=
  let s : State := { slotted with time := 22 * 168000 }
  let s := onCtx s fun c => { c with
    st := .blocked, blockedAt := 168000, lrec := wholeRecord, main := { c.main with waits := [.yield (10 ^ 9) 0x10000] } }
  s.setPart 0 { s.part 0 with launches := [{ launch with
    lrec := { wholeRecord with dieMask := 1, coreMask := 1 }, next := 0 }] }

/-- It asks for context 0. -/
def crowds (s : State) : Bool :=
  match s.candidates 0 with
  | l :: _ => (s.fit 0 l).isNone && ((s.without ((s.ctxsOf 0).filter (fun q => (s.ctx q).leaving))).fit 0 l).isNone
      && s.chooseVictims 0 l s.idleVictims (fun _ => (0, 0)) == some [c0]
  | [] => false

/-- SavesAndResumes: PREEMPT of a context that runs, of one that is EMPTY and while DONE is 0; a bound that is met, one
that is a cycle away, and one that a cause comes before; a candidate that fits nowhere; a record that can be written. -/
theorem witness_SavesAndResumes :
    (let v : Word := 0x8000000000000000;
      v.getLsbD 63 = true ∧ v.getLsbD 14 = false ∧ v.extractLsb' 9 5 = 0 ∧ v.extractLsb' 3 6 = 0 ∧ v.extractLsb' 0 3 = 0 ∧
      slotted.bar0Open 0 false = true ∧ bitOf (slotted.part 0).dies 0 = true ∧ (slotted.part 0).preDone = true ∧
      (slotted.ctx c0).st = .ready ∧ (slotted.ctx c0).want = none ∧ (slotted.ctx ⟨0, 0, 7⟩).st = .empty) ∧
    (let s := slotted.setPart 0 { slotted.part 0 with preDone := false };
      s.bar0Open 0 false = true ∧ (s.part 0).preDone = false) ∧
    (let s : State := { onCtx slotted fun c => { c with want := some .driver } with time := 80 * 1024 };
      s.maySave c0 = true ∧ s.freeSlot 0 = some 0 ∧ (s.ctx c0).prebound.toNat ≤ s.safeCount c0 ∧ s.hardWaits c0 = false) ∧
    (let s : State := { onCtx slotted fun c => { c with want := some .driver } with time := 80 * 1023 };
      s.maySave c0 = true ∧ s.freeSlot 0 = some 0 ∧ s.safeCount c0 < (s.ctx c0).prebound.toNat) ∧
    (let s : State := { onCtx slotted fun c => { c with want := some .driver, inbox := [(false, cause 3)] } with time := 80 * 1024 };
      s.maySave c0 = true ∧ s.freeSlot 0 = some 0 ∧ s.hardWaits c0 = true) ∧
    (crowded.scheduling 0 = true ∧ (crowded.freeSlot 0).isSome = true ∧ crowds crowded = true ∧
      (crowded.ctx c0).st = .blocked ∧ (crowded.ctx c0).want = none) ∧
    ((heldState.ctx c0).st = .ready ∧ (heldState.ctx c0).save = .holding true 0 ∧ heldState.groupOf c0 = [c0] ∧
      heldState.savable c0 = true ∧ recordMaps heldState = true) := by decide +kernel

/-- A record of that program in its slot, whose revision is the module's own. -/
def recordCells : Memory :=
  [(0x1000000, 1)] ++ (List.range 4).map (fun i => (0x1000004 + i, (toBytes 4 Config.revCode.toNat).getD i 0))
    ++ [(0x100000C, 1), (0x1000016, 1), (0x1000018, 1), (0x1000051, 4), (0x10000C4, 1), (0x10000D1, 1), (0x10000D4, 1)]

/-- The program saved there. -/
def savedOne : Saved :=
  { slot := 0, prog := { ProgId.zero with seq := 1 }, lrec := { LaunchRecord.zero with lanes := 1, gsize := 1, nprog := 1 },
    hard := false, tagged := false, order := 0, home := c0 }

/-- It resumes in context 0. -/
def resumed : State :=
  let s := onCtx { slotted with mem := recordCells } fun c => { c with st := .starting, save := .resuming 0 }
  s.setPart 0 { s.part 0 with savedProgs := [savedOne] }

/-- Where the record stands, and the bytes of its header. -/
def recordBase : Nat := 0x1000000
def headerBytes : Nat := 4096

/-- The sectors of the record's header, as far as the first. -/
def headerSector : Bool :=
  match (resumed.unitMap 0 (.starting c0) .read (sectors recordBase headerBytes)).1 with
  | .at_ m => m.head? == some (recordBase, 64, recordBase)
  | _ => false

theorem test_headerSector : headerSector = true := by decide +kernel

/-- A record's numbers but for the revision keep their ranges, and its launch record is the saved program's. -/
def wellRead (r : RecordBytes) (v : Saved) : Bool :=
  fieldsOk r && v.named r && recNum r 16 4 = 0 && lrecOf r == v.lrec

/-- All of it can be read, and passes a test. -/
def readsAs (test : RecordBytes → Bool) : Bool :=
  match (resumed.resumeReads c0 0).1 with
  | .ok x => test x.1
  | .error _ => false

theorem test_readsWell_fixed : readsAs (fun r => fixedOk r && entriesOk r && savedOne.named r && recNum r 16 4 = 0
    && lrecOf r == savedOne.lrec) = true := by decide +kernel
theorem test_readsWell_tables : readsAs tablesOk = true := by decide +kernel
theorem test_readsWell_engines : readsAs (fun r => (List.range 16).all (engineOk r)) = true := by decide +kernel

theorem test_readsWell : readsAs (fun r => wellRead r savedOne) = true := by
  have a := test_readsWell_fixed
  have b := test_readsWell_tables
  have c := test_readsWell_engines
  unfold readsAs at *
  generalize (resumed.resumeReads c0 0).1 = z at a b c ⊢
  cases z with
  | error e => cases a
  | ok x =>
    simp only [Bool.and_eq_true] at a b c
    simp only [wellRead, fieldsOk, Bool.and_eq_true]
    exact ⟨⟨⟨⟨⟨⟨a.1.1.1.1, a.1.1.1.2⟩, b⟩, c⟩, a.1.1.2⟩, a.1.2⟩, a.2⟩

/-- A record that can be read begins with the bytes of its first sector. -/
theorem readRegions_head {s u : State} {c : CtxRef} {base n : Nat} {q : RecordBytes} (h0 : n ≠ 0)
    (h : s.readRegions c base [(0, n)] = (.ok q, u)) :
    ∃ m, (s.unitMap c.die (.starting c) .read (sectors base n)).1 = .at_ m ∧
      q = [(0, m.flatMap (fun p => s.mem.read p.2.2 p.2.1))] := by
  simp only [State.readRegions, State.startRead, h0, ite_false, Nat.add_zero] at h
  split at h
  · cases h
  · cases h
  next e =>
    cases h
    obtain ⟨m, h1, rfl⟩ := State.unitRead_bytes e
    exact ⟨m, h1, rfl⟩

/-- The header stands before what is read after it. -/
theorem readsAfter_head {s : State} {c : CtxRef} {base tab n : Nat} {h : RecordBytes} {l : List (Nat × Nat)}
    {x : RecordBytes × List (BitVec 32)} (e : (s.readsAfter c base h l tab n).1 = .ok x) : ∃ r, x.1 = h ++ r := by
  unfold State.readsAfter at e
  split at e
  · cases e
  · split at e
    · cases e
    · cases e
    · cases e; exact ⟨_, rfl⟩

/-- What a program that resumes reads begins with its header's first sector. -/
theorem readsFor_head {s : State} {c : CtxRef} {slot n : Nat} {x : RecordBytes × List (BitVec 32)} (pos : n ≠ 0)
    (h : (s.readsFor c slot n).1 = .ok x) :
    ∃ m rest, (s.unitMap c.die (.starting c) .read (sectors (s.slotVa (s.ctx c).prog.part slot) n)).1 = .at_ m ∧
      x.1 = (0, m.flatMap (fun p => s.mem.read p.2.2 p.2.1)) :: rest := by
  unfold State.readsFor at h
  dsimp only at h
  split at h
  · cases h
  next eh =>
    obtain ⟨m, hm, rfl⟩ := readRegions_head pos eh
    obtain ⟨r, hr⟩ := readsAfter_head h
    exact ⟨m, r, hm, hr⟩

/-- Four bytes of a list that begins with 64 others. -/
theorem recNum_head {l m : List Byte} {rest : RecordBytes} {v : BitVec 32} (len : l.length = 64)
    (four : (l.drop 4).take 4 = toBytes 4 v.toNat) : recNum ((0, l ++ m) :: rest) 4 4 = v.toNat := by
  have found : (decide (0 ≤ 4) && decide (4 + 4 ≤ 0 + (l ++ m).length)) = true := by simp [len]; omega
  have cut : ((l ++ m).drop 4).take 4 = (l.drop 4).take 4 := by
    rw [List.drop_append_of_le_length (by omega), List.take_append_of_le_length (by simp [len])]
  rw [recNum, List.find?_cons, found]
  simp only [field, Nat.sub_zero, cut, four]
  have := v.isLt
  generalize v.toNat = r at *
  simp [toBytes, ofBytes, List.range_succ, List.range_zero, Nat.shiftRight_eq_div_pow]
  omega
/-- Four bytes of the record. -/
theorem header_four : ((resumed.mem.read recordBase 64).drop 4).take 4 = toBytes 4 Config.revCode.toNat := by
  have cut (m : Memory) (a : Nat) : ((m.read a 64).drop 4).take 4 = [m.byte (a + 4), m.byte (a + 5), m.byte (a + 6), m.byte (a + 7)] := by
    rw [Memory.read_eq]
    rfl
  rw [cut]
  rfl

/-- The record's revision is the module's. -/
theorem revision_kept {x : RecordBytes × List (BitVec 32)} (h : (resumed.resumeReads c0 0).1 = .ok x) :
    recNum x.1 4 4 = Config.revCode.toNat := by
  have sec := test_headerSector
  have base : resumed.slotVa (resumed.ctx c0).prog.part 0 = recordBase := by decide +kernel
  have some_ : headerBytes ≠ 0 := by decide +kernel
  obtain ⟨m, rest, hm, hx⟩ := readsFor_head some_ (show (resumed.readsFor c0 0 headerBytes).1 = .ok x from h)
  unfold headerSector at sec
  rw [base] at hm
  have die : c0.die = 0 := rfl
  rw [die] at hm
  rw [hm] at sec
  cases m with
  | nil => exact absurd sec (by decide)
  | cons y m =>
    have hy : y = (recordBase, 64, recordBase) := by simpa using sec
    rw [hx, hy, List.flatMap_cons]
    exact recNum_head (by simp [Memory.read_eq]) header_four

/-- What was read has nothing pending beside it. -/
def readsCalm : Bool :=
  let u := (resumed.resumeReads c0 0).2
  (u.ctx (savedPlace (u.ctx c0).prog.part 0)).main.causes.isEmpty

theorem test_readsCalm : readsCalm = true := by decide +kernel

theorem wellRead_ok {r : RecordBytes} {v : Saved} (h : wellRead r v = true) (rev : recNum r 4 4 = Config.revCode.toNat) :
    recordOk v r = true ∧ recNum r 16 4 = 0 ∧ lrecOf r = v.lrec := by
  simp only [wellRead, Bool.and_eq_true, decide_eq_true_eq, beq_iff_eq] at h
  exact ⟨by simp [recordOk, rev, h.1.1.1, h.1.1.2], h.1.2, h.2⟩

/-- SavesAndResumes: a program that resumes. -/
theorem witness_SavesAndResumes_resume :
    ((resumed.ctx c0).st = .starting ∧ (resumed.ctx c0).save = .resuming 0 ∧ resumed.groupOf c0 = [c0] ∧
      resumed.placeSettled (savedPlace (resumed.ctx c0).prog.part 0) = true) ∧
    ∃ v r tab u, resumed.resumeAll [(c0, 0)] = (.ok [(c0, 0, v, r, tab)], u) ∧ recNum r 16 4 % 2 = 0 ∧
      (u.ctx (savedPlace (u.ctx c0).prog.part 0)).main.causes = [] := by
  refine ⟨by decide +kernel, ?_⟩
  have well := test_readsWell
  have calm := test_readsCalm
  have rev := @revision_kept
  have one (z) (h : resumed.resumeReads c0 0 = z) :
      resumed.resumeAll [(c0, 0)] = resumed.resumeAfter [] c0 0 savedOne z := by
    have saved : (resumed.part (resumed.ctx c0).prog.part).savedIn 0 = some savedOne := by decide +kernel
    simp only [State.resumeAll, List.foldl_cons, List.foldl_nil, State.resumeOne, saved, h]
    rfl
  unfold readsAs at well
  unfold readsCalm at calm
  generalize resumed.resumeReads c0 0 = z at well calm rev one
  obtain ⟨z, u⟩ := z
  rw [one _ rfl]
  cases z with
  | error e => cases well
  | ok x =>
    obtain ⟨ok, even, lrec⟩ := wellRead_ok well (rev rfl)
    have rec_ : (resumed.ctx c0).lrec = savedOne.lrec := by decide +kernel
    refine ⟨savedOne, x.1, x.2, u, ?_, by rw [even], by simpa using calm⟩
    simp [State.resumeAfter, ok, lrec, rec_]

/-! ### States that meet the hypotheses: causes, records, launches -/

/-- It is on its way to context 0. -/
def caused (kind : BitVec 3) (st : CtxState) (pending : Nat) : State :=
  onCtx { base with issue := Issue.zero, time := 80 } fun c => { c with
    st := st, inbox := [(false, cause kind)], main := { c.main with causes := List.replicate pending (cause 3) } }
/-- It reaches its part: it was raised in an earlier cycle. -/
def comesNow (s : State) (q : Cause) : Bool := (s.ctx c0).inbox == [(false, q)] && decide (q.cycle s.readyAt < s.cycle)
/-- The running handler's own operation raised one. -/
def ownCause : Cause := { cause 3 with inHandler := true, gen := 4 }
def doubled : State := onCtx (caused 3 .ready 0) fun c => { c with
  inbox := [(false, ownCause)], main := { c.main with handler := some handling, hgen := 4 } }

/-- A record held, and a fault queue of 16 slots with room for one. -/
def faultRecord : FaultRecord :=
  { code := 0x49, kind := 3, flags := 0, src := 0x1234, seq := 1, prog := 0, pc := 0x10000, val := 0x18000, val2 := 0, time := 5,
    issued := 0 }
def recording (wp rp : BitVec 32) : State :=
  paged.setPart 0 { paged.part 0 with
    fqBase := 0x1000, fqEn := true, fqLog2 := 4, fqWp := wp, fqRp := rp, holding := [faultRecord, faultRecord] }
/-- A message is owed, the last sent at a time. -/
def owing (last : Option Nat) (mask : Bool) : State :=
  let s : State := { paged with time := 4 * 168000 }
  s.setPart 0 { s.part 0 with msixOn := true, msixOwed := true, msixLast := last, msix := [(0, { MsixEntry.zero with mask := mask })] }

/-- CausesAndRecords: a cause that is taken, one that is held as the last there is room for, one there is no room for, one
that the handler itself raised, one raised in this cycle, one that ends the program, an error of each end of the range; a
record for the queue's last slot, one for another partition's memory, one that a program about to end comes before; a
message that may be sent again. -/
theorem witness_CausesAndRecords :
    (let s := caused 3 .ready 0;
      comesNow s (cause 3) = true ∧ (cause 3).kind ≠ 4 ∧ (s.ctx c0).main.takes = true ∧ (s.ctx c0).main.due = false ∧
      (alwaysRecord (cause 3).code && !(cause 3).recorded) = false ∧ (s.ctx c0).main.arrived = false ∧ (s.ctx c0).st = .ready ∧ (s.ctx c0).save = .none ∧ (s.ctx c0).main.causes = [] ∧
      (s.ctx c0).handlerAddr ≠ 0) ∧
    (∀ n ∈ [15, 16], let s := caused 3 .blocked n;
      comesNow s (cause 3) = true ∧ (s.ctx c0).st = .blocked ∧ (s.ctx c0).main.handler = none ∧
      (s.ctx c0).main.causes.length = n) ∧
    (comesNow doubled ownCause = true ∧ (doubled.ctx c0).st = .ready ∧ ownCause.kind ≠ 4 ∧
      (doubled.ctx c0).main.handler = some handling ∧ ownCause.inHandler = true ∧
      ownCause.gen = (doubled.ctx c0).main.hgen) ∧
    (let s : State := { caused 3 .ready 0 with time := 79 };
      (s.ctx c0).inbox = [(false, cause 3)] ∧ (s.ctx c0).st = .ready ∧ s.cycle ≤ (cause 3).cycle s.readyAt) ∧
    (let s := caused 4 .resident 0;
      comesNow s (cause 4) = true ∧ (s.ctx c0).st = .resident ∧ (cause 4).kind = 4) ∧
    (∀ a ∈ ([1, 6] : List (BitVec 8)), 1 ≤ a.toNat ∧ a.toNat ≤ 6) ∧
    (let s := recording 15 0;
      (s.part 0).canRecord = true ∧ (s.part 0).holding = [faultRecord, faultRecord] ∧ (s.part 0).behind = [] ∧ s.mem.wf ∧
      s.endsBefore 0 faultRecord = false ∧ s.ownReach 0 (0x1000 * 64 + 64 * 15) 64 = true) ∧
    (let s := recording 15 0; let t := s.setPart 0 { s.part 0 with fqBase := 0x80000000 };
      (t.part 0).canRecord = true ∧ (t.part 0).holding = [faultRecord, faultRecord] ∧ t.endsBefore 0 faultRecord = false ∧
      t.ownReach 0 (0x80000000 * 64 + 64 * 15) 64 = false) ∧
    (let s := onCtx (recording 15 0) fun c => { c with inbox := [(false, cause 4)] };
      (s.part 0).canRecord = true ∧ (s.part 0).holding = [faultRecord, faultRecord] ∧ s.endsBefore 0 faultRecord = true) ∧
    ((owing none false).part 0).msixOwed = true ∧ ((owing none false).part 0).msixLast = none ∧
    (((owing (some 0) false).part 0).msixOwed = true ∧ ((owing (some 0) false).part 0).msixLast = some 0 ∧
      0 + 4 * tickUs ≤ (owing (some 0) false).time ∧ (((owing (some 0) false).part 0).vector 0).mask = false ∧
      ((owing (some 0) false).part 0).pcieUp = true ∧ ((owing (some 0) false).part 0).d3 = false ∧
      ((owing (some 0) false).part 0).msixOn = true) := by decide +kernel

/-- A launch record of one program of one engine on core 47 of die 0, and its image's table entry. -/
def oneRecord (compl : Word) : LaunchRecord :=
  { LaunchRecord.zero with lanes := 1, gsize := 1, nprog := 1, dieMask := 1, coreMask := 0x800000000000, compl := compl }
def imageEntry : List Byte := toBytes 40 0 ++ toBytes 8 0x100010000 ++ toBytes 16 0

/-- Launch queue 63 with one record at 0x20000, the image table at 0x20400. -/
def queued (compl : Word) : State :=
  let s : State := { paged with mem := paged.mem.write 0x20000 (oneRecord compl).bytes |>.write 0x20400 imageEntry, issue := Issue.zero }
  let s := s.setPart 0 { s.part 0 with
    lq := [(63, { LaunchQueue.zero with base := 0x800, en := true, wp := 1 })], imgBase := 0x810, imgCnt := 1 }
  s.setDie 0 { s.die 0 with l2tlb := [{ vbase := 0x20000, size := 65536, leaf := 0x2001F }] }

/-- What its record says once it has been read with its image's entry. -/
def queueCheck (s : State) : Option (Option Nat) :=
  match s.fetchFor (s.firstDie 0) 0 0x20000 64 (.queue 0 63) with
  | (.bytes l, u) => match u.imageFor (s.firstDie 0) 0 (recordOf l).image (.queue 0 63) with
    | (.bytes m, v) =>
      let w := v.setPart 0 { v.part 0 with
        lq := nset (v.part 0).lq 63 { (v.part 0).queue 63 with rp := ((v.part 0).queue 63).rp + 1 } }
      some (w.launchCheck 0 l (recordOf l) (some (imageWords m)))
    | _ => none
  | _ => none

/-- A launch of one program waits to be placed. -/
def waits : State :=
  paged.setPart 0 { paged.part 0 with launches := [{ launch with lrec := oneRecord 0, next := 0 }] }

/-- It fits in a place. -/
def fitsNow (s : State) : Bool :=
  match s.candidates 0 with
  | c :: _ => match s.fit 0 c, c.progs with
    | some (_, _, [(m, sp)]), [(g, none)] => m == g.mem && sp.at_.ok && !s.retiring 0 fun _ => true
    | _, _ => false
  | [] => false

/-- The line of the record of a queue is poisoned. -/
def unread : State := (queued 0).poisonLine 0x800
def unreadCode : Option (BitVec 8) :=
  match (unread.fetchFor (unread.firstDie 0) 0 0x20000 64 (.queue 0 63)).1 with
  | .fail c => some c
  | _ => none

/-- LaunchesAndPlacing: a record that passes, one whose completion address is misaligned and one that cannot be read; a
queue that is empty; a program with a place; no candidate; a launch that waits, and none. -/
theorem witness_LaunchesAndPlacing :
    (∀ n ∈ [0, 4], let c : Word := BitVec.ofNat 64 n; let s := queued c; let x := (s.part 0).queue 63;
      (s.part 0).formed = true ∧ (s.part 0).resetting = false ∧ x.en = true ∧ x.rp ≠ x.wp ∧
      x.base.toNat * 64 + 64 * (x.rp.toNat % 2 ^ x.log2.toNat) = 0x20000 ∧ (oneRecord c).image < (s.part 0).imgCnt.toNat) ∧
    (queueCheck (queued 0) = some none ∧ queueCheck (queued 4) = some (some 1) ∧ (oneRecord 4).compl.toNat % 8 ≠ 0) ∧
    ((unread.part 0).formed = true ∧ (unread.part 0).resetting = false ∧ unreadCode.isSome = true) ∧
    ((paged.part 0).queue 63).en = false ∧
    (waits.scheduling 0 = true ∧ fitsNow waits = true) ∧ paged.candidates 0 = [] ∧
    (waits.part 0).ordered.find? Launch.waits = some { launch with lrec := oneRecord 0, next := 0 } ∧
    (paged.part 0).ordered.find? Launch.waits = none := by decide +kernel

/-- A NODEPUT whose record has been read, for the last slot of bin 63, which may be the second of a batch. -/
def nodeput : Access :=
  { access (.nodeput 0 63) { piece 8 (toBytes 8 0x0123456789ABCDEF) with st := .acked } with wc := 4 }
def aBatch : Batch :=
  { id := 64, num := 64, first := 0, count := 1, openedAt := 0, buf := 0x20000, closed := false, launched := false }
def putState (l : List Batch) (coal : Nat) : State :=
  let s := onCtx (queued 0) fun c => { c with wc := [(4, 1)] }
  ({ s with accs := [nodeput] }.setDie 0 { s.die 0 with l2tlb := [{ vbase := 0x20000, size := 65536, leaf := 0x2001F }] }).setBin 0 63
    { Bin.zero with buf := 0x20000, coal := coal, rsize := 1, cap := 4, next := 3, nextBatch := 9, batches := l }

/-- Its slot can be written. -/
def putMaps (s : State) : Bool :=
  let b := s.bin 0 63
  match s.unitMap 0 (.access 5) .write (sectors (b.buf.toNat + 64 + 8 * b.rsize * b.next) (8 * b.rsize)) with
  | (.at_ l, u) => u.unitFault 0 false l == none
  | _ => false

/-- A bin with 64 batches at work and one open for n µs of its timer's 10. -/
def timedBin (n : Nat) : State :=
  let s : State := { queued 0 with time := n * 168000 }
  s.setBin 0 63 { Bin.zero with
    buf := 0x20000, coal := 2, rsize := 1, cap := 4, timer := 10
    batches := (List.range 64).map (fun i => { aBatch with id := i, closed := true, launched := true }) ++ [aBatch] }

/-- LaunchesAndBins: a NODEPUT for a bin's last slot that opens a batch, one that joins the open batch, and one whose
slot is taken; a batch whose timer has run out and one whose timer has not; a bin without a timer. -/
theorem witness_LaunchesAndBins :
    (∀ x ∈ [(([] : List Batch), 2), ([aBatch], 3)], let s := putState x.1 x.2; let b := s.bin 0 63;
      s.accs = [nodeput] ∧ nodeput.isOpen = false ∧ nodeput.failure = none ∧ nodeput.index = none ∧
      s.partOk nodeput.who = true ∧ b.coal ≠ 0 ∧ b.cap ≠ 0 ∧ b.taken b.next = false ∧ putMaps s = true) ∧
    (((putState [] 2).bin 0 63).batches = [] ∧
      (((putState [aBatch] 3).bin 0 63).batches.find? (fun z => !z.closed)) = some aBatch ∧ aBatch.count + 1 < 3) ∧
    (let s := putState [{ aBatch with first := 3 }] 3; (s.bin 0 63).taken (s.bin 0 63).next = true) ∧
    (∀ n ∈ [10, 9], let b := (timedBin n).bin 0 63;
      b.batches.find? (fun z => !z.closed) = some aBatch ∧ 64 ≤ b.flying ∧ b.timer ≠ 0 ∧
      ((timedBin n).part ((timedBin n).partN 0)).parked = []) ∧
    (((timedBin 10).bin 0 63).timer * tickUs ≤ (timedBin 10).time ∧
      (timedBin 9).time < ((timedBin 9).bin 0 63).timer * tickUs) ∧ ((putState [] 2).bin 0 63).timer = 0 := by decide +kernel

/-! ### States that meet the hypotheses: collectives and links -/

/-- A descriptor of a sum of four words over n members. -/
def collBytes (n : Nat) : List Byte :=
  toBytes 8 0x18100 ++ toBytes 8 0x18200 ++ toBytes 8 0x40 ++ toBytes 4 4 ++ toBytes 4 n ++ toBytes 32 0
/-- A member of context 0 or 1, and an instance whose descriptor has not been read. -/
def collMember (i : Nat) : CollMember :=
  { id := 7 + i, mem := i, by_ := { issuer0 with ctx := ⟨0, 0, i % 2⟩ }, desc := 0x18000, src := 0x18100, dst := 0x18200, written := false, dead := false,
    places := [(0x18200, 32, 0x18200)] }
def collStub (i : Nat) : CollInst :=
  { id := 3, part := 0, group := 0, k := 0, count := 0, nmemb := 0, op := 0, fmt := 0, root := 0, members := [collMember i],
    mismatch := false, formed := false, results := [] }
/-- An instance of two members, both of which have joined. -/
def collFull : CollInst :=
  { collStub 0 with group := 0x40, count := 4, nmemb := 2, members := [collMember 1, collMember 0] }
/-- It has formed, and one member's DST is to be written. -/
def collFormed (i : Nat) : CollInst :=
  { collFull with formed := true, results := [(0, toBytes 8 0x3FF0000000000000 ++ toBytes 24 0)], members := [collMember i] }
def collState (i : CollInst) (nmemb : Nat) : State :=
  let m := base.mem.write 0x18000 (collBytes nmemb) |>.write 0x18100 (toBytes 8 0x3FF0000000000000)
  { writable (onCtx { base with mem := m } fun c => { c with wc := [(2, 1)] }) with colls := [i], issue := Issue.zero }

/-- What a member's descriptor says. -/
def collOk (i nmemb : Nat) : Bool :=
  match (collState (collStub i) nmemb).unitRead 0 (.coll 3 (7 + i)) 0x18000 64 with
  | (.bytes l, _) => (collDescOf l).ok i
  | _ => false
/-- The sources of the members of an instance can be read, and their destinations found. -/
def collForms (i : CollInst) : Bool :=
  match (collState i 2).collSources i i.ordered with
  | (.ok l, _) => l.length == i.members.length && l.all (fun p => p.2.1 == toBytes 8 0x3FF0000000000000 ++ toBytes 24 0)
  | _ => false
/-- Some bytes of a member's source can be read. -/
def collReads (n : Nat) : Bool :=
  match ((collState collFull 2).collRead collFull (collMember 1) n).1 with
  | .bytes l => l.length == n
  | _ => false
/-- An instance of three, of which one member has joined in another module and one is still to come. -/
def collSpread (l : List CollOutside) : CollInst :=
  { collFull with nmemb := 3, members := [collMember 1], outside := l }
def outsider (n : Nat) : CollOutside := { module := 3, mem := n, agrees := true, bytes := some (toBytes 32 0) }

/-- An instance of three with member 1, open, that agrees with the descriptors or not, and member 0's of its own. -/
def collOpen (count : Nat) : CollInst :=
  { collFull with id := 2, count := count, nmemb := 3, members := [collMember 1] }
def joining (count : Nat) : State := { collState (collStub 0) 3 with colls := [collStub 0, collOpen count] }
def joinsNow (count : Nat) : Bool :=
  let s := joining count
  match (s.unitRead 0 (.coll 3 7) 0x18000 64).1 with
  | .bytes l => (collDescOf l).ok 0 && (collDescOf l).group == 0x40 && s.joinCount 0 0x40 0 == 0 && !s.collBehind (collMember 0) 0x18000 64
  | _ => false
/-- A full instance that was marked, of one member of this module. -/
def collMarked : CollInst := { collFull with members := [collMember 0], outside := [outsider 1], mismatch := true }

/-- CollectivesRun: a member that opens an instance, the first and the last; one whose index is its group's size; one that
joins an open instance, agreeing and not; a full instance that was marked; a member of another module, the first index and
the last; a source's first byte and all of it; an instance that is full; each member's result. -/
theorem witness_CollectivesRun :
    (∀ i ∈ [0, 1], collOk i 2 = true ∧ (collState (collStub i) 2).colls = [collStub i] ∧ (collStub i).nmemb = 0 ∧
      (collStub i).members = [collMember i] ∧ (collMember i).written = false) ∧
    collOk 2 2 = false ∧ (collState (collStub 2) 2).hears c0 = true ∧
    (∀ n ∈ [0, 2], let i := collSpread []; let s := collState i 3; let o := outsider n;
      s.colls = [i] ∧ s.collBroken i = false ∧ i.members.length + i.outside.length + 1 < i.nmemb ∧
      o.mem < i.nmemb ∧ (∀ x ∈ i.members, x.mem ≠ o.mem) ∧ o.bytes = some (toBytes 32 0) ∧ (toBytes 32 0).length = i.srcLen) ∧
    (∀ n ∈ [1, 32], collReads n = true) ∧
    (∀ n ∈ [4, 5], (joining n).colls = [collStub 0, collOpen n] ∧ (collOpen n).id ≠ (collStub 0).id ∧ joinsNow n = true ∧
      (collOpen n).members.length + (collOpen n).outside.length + 1 < (collOpen n).nmemb ∧ (collOpen n).k = 0) ∧
    (collMarked.full = true ∧ collMarked.members = [collMember 0] ∧ (collState collMarked 2).hears c0 = true) ∧
    (let s := collState collFull 2;
      s.colls = [collFull] ∧ s.collBroken collFull = false ∧ collFull.nmemb ≠ 0 ∧ collFull.formed = false ∧ collFull.full = true ∧
      collFull.mismatch = false ∧ collFull.outside = [] ∧ collForms collFull = true ∧
      collFull.members.find? (fun x => x.mem = (collMember 1).mem) = some (collMember 1)) ∧
    (∀ i ∈ [0, 1], (collFormed i).nmemb ≠ 0 ∧ (collFormed i).formed = true ∧ (collFormed i).members = [collMember i] ∧
      (collMember i).written = false ∧ (collState (collFormed i) 2).collBroken (collFormed i) = false ∧ (collState (collFormed i) 2).unitFault 0 false (collMember i).places = none) := by
  decide +kernel

/-- A link of its own. -/
def onLink (k : Nat) (l : Link) : State := { base with links := [(k, l)], issue := Issue.zero, time := 3 * 168000 }
/-- A turnRequest of die 0 for n groups. -/
def turnRequest (n : Nat) : TurnReq := { ctx := c0, die := 0, target := n, prio := 0 }
/-- Group g turns toward the higher end. -/
def turning (g : Nat) (ph : TurnPhase) : Link := { Link.zero with turning := some { group := g, up := true, phase := ph } }

/-- A link whose next turnRequest asks for n groups, and the group that turns for it. -/
def turnsNow (k n g : Nat) : Bool :=
  let s := onLink k { Link.zero with queue := [turnRequest n] }
  let l := s.link k
  let d := upFrom k 0
  let have_ := (l.carrying d).length
  let from_ := if have_ < n then !d else d
  !l.boundary && l.turning.isNone && l.serving.isNone && l.nextRequest k == some (turnRequest n) && !s.spent c0 &&
    have_ != n && (l.carrying from_).find? (l.rested s.time) == some g && l.mayGive from_

/-- A store to another module, or to the host, that waits. -/
def faraway (pa : Nat) : Access :=
  { access .store { piece 8 (toBytes 8 0) with pa := some pa } with since := 0 }
def farState (pa : Nat) (ports : NMap Port) (time : Nat) : State :=
  { outstanding (faraway pa) with ports := ports, time := time, issue := Issue.zero }

/-- LinksTurn: a turnRequest for more groups and one for fewer, of the first link and the last; a turn that drains and one
whose 24 ns are over; a dwell that has ended; a window for AUTO either way; an entry to AUTO; the 16th replay and one
CRC error too many; the end of a window and a cycle before it; the last port; a retired port and a host access whose
time is over. -/
theorem witness_LinksTurn :
    (turnsNow 0 14 8 = true ∧ turnsNow 0 2 0 = true ∧ turnsNow 37 9 8 = true) ∧
    (∀ g ∈ [0, 15], (onLink 37 (turning g .drain)).link 37 = turning g .drain ∧ (turning g .drain).serving = none) ∧
    (∀ g ∈ [0, 15], let s := onLink 37 (turning g (.dead (3 * 168000)));
      (s.link 37).turning = some { group := g, up := true, phase := .dead (3 * 168000) } ∧ (s.link 37).serving = none ∧
      3 * 168000 ≤ s.time) ∧
    (let s := onLink 37 { Link.zero with dwell := [(15, 3 * 168000)] };
      nget (s.link 37).dwell 15 = some (3 * 168000) ∧ 3 * 168000 ≤ s.time ∧ (s.link 37).serving = none) ∧
    (let l := (onLink 33 Link.zero).link 33;
      l.boundary = false ∧ l.auto = true ∧ l.turning = none ∧
      (l.carrying false).find? (l.rested (21000 * 80)) = some 8 ∧ l.mayGive false = true ∧
      (l.carrying true).find? (l.rested (21000 * 80)) = some 0 ∧ l.mayGive true = true) ∧
    (let s : State := { onLink 37 { Link.zero with auto := false } with time := 50 * tickUs };
      (s.link 37).boundary = false ∧ (s.link 37).queue = [] ∧ (s.link 37).lastTurn + 50 * tickUs ≤ s.time) ∧
    ((onLink 37 Link.zero).link 37).retired.getLsbD 15 = false ∧
    (onLink 37 Link.zero).portRetired 31 = none ∧
    (let s : State := { onLink 33 Link.zero with time := 21000 * 80 };
      s.cycle % 21000 = 0 ∧ s.window ≠ (s.link 33).autoWin ∧ (s.link 33).autoWin = 0) ∧
    (let s : State := { onLink 33 Link.zero with time := 21000 * 80 - 1 }; s.cycle % 21000 ≠ 0) ∧
    (let pa := 0x4000000000000; let s := farState pa [(0, { retiredAt := some 1 })] (1 + 1000 * tickUs); let a := faraway pa;
      s.accs = [a] ∧ a.who.ctx? = some a.by_.ctx ∧ s.hears a.by_.ctx = true ∧ s.portRetired 0 = some 1 ∧ a.since < 1 ∧
      1 + 1000 * tickUs ≤ s.time) ∧
    (∀ x ∈ [(([] : NMap (Nat × Nat)), 0), ([(5, (0, 1))], 50000 * tickUs - 1), ([(5, (0, 1))], 50000 * tickUs)],
      let pa := 0x8000000000000; let s : State := { farState pa [] x.2 with hostSent := x.1 }; let a := faraway pa;
      s.accs = [a] ∧ a.id = 5 ∧ paSpace pa = 2 ∧ a.op = .store ∧ a.dropped = false ∧ a.index = none ∧
      a.pieces.all (fun p => !p.helper && p.isOpen && s.mayPerform a p) = true ∧ a.pieces.length = 1 ∧
      a.who.ctx? = some a.by_.ctx ∧ s.hears a.by_.ctx = true) := by
  decide +kernel

/-! ### States that meet the hypotheses: the host, fabrics and errors -/

/-- Partition 0 changed, its link up. -/
def onPart (f : Partition → Partition) : State := paged.setPart 0 (f (paged.part 0))
/-- A write of the last byte of a line, and one that reaches no die. -/
def hostWrite (off : Nat) : HostWrite := { off := off, bytes := [0x5A] }
/-- Requests of the host that have gone on. -/
def hostAsks : List HostRequest :=
  [.read 0x18000 64, .fetchAdd 0x18000 4 (-1), .swap 0x18008 8 7, .read (24 * 2 ^ 37) 64]

/-- HostRequestsServed: a write to arrive, one to perform and one to discard; requests of the last address of memory and
the first of the registers, before and behind a write; requests to perform and one to abort; a link up, and one down; a read
of another module's; configuration requests, a change of power, a function in D3hot, and a number without a function. -/
theorem witness_HostRequestsServed :
    ((paged.part 0).pcieUp = true ∧ (paged.part 0).parked = [] ∧ paged.accs = [] ∧ (paged.part 0).posted = []) ∧
    (∀ off ∈ [0x1803F, 24 * 2 ^ 37], let s := onPart fun k => { k with posted := [hostWrite off, hostWrite 0], bar2 := [.read (2 ^ 37) 64] };
      (s.part 0).posted = [hostWrite off, hostWrite 0] ∧ (s.part 0).asks = [] ∧ (hostWrite off).off % 64 + 1 ≤ 64 ∧
      s.presents 0 = true ∧ (s.part 0).pcieUp = true ∧ (s.part 0).d3 = false ∧
      (∀ q ∈ (s.part 0).bar2, paDie q.addr ≠ paDie (hostWrite off).off)) ∧
    (let s := onPart fun k => { k with posted := [hostWrite 0x1803F], bar2 := [.read 0 64] };
      (s.part 0).posted = [hostWrite 0x1803F] ∧ ∃ q ∈ (s.part 0).bar2, paDie q.addr = paDie (hostWrite 0x1803F).off) ∧
    (paged.reaches 0 0x1803F = true ∧ paged.reaches 0 (24 * 2 ^ 37) = false ∧ paged.mem.wf) ∧
    ((HostRequest.read (2 ^ 42 - 1) 1).fromHost = true ∧ (HostRequest.read (2 ^ 42) 4096).fromHost = true ∧
      (HostRequest.swap 0 8 7).fromHost = true) ∧
    (∀ r ∈ hostAsks, ((onPart fun k => { k with bar2 := [r] }).part 0).bar2 = [r]) ∧
    (paged.reaches 0 0x18000 = true ∧ paged.reaches 0 0x18008 = true ∧ paged.reaches 0 0x1803F = true ∧
      paged.poisoned 0x18000 = false ∧ 0x18000 % 4 = 0 ∧ 0x18008 % 8 = 0) ∧
    (paged.presents 0 = true ∧ (paged.part 0).d3 = false ∧ (hostWrite 0).bytes.length ≤ 512) ∧
    (∀ r ∈ [HostRequest.config 0, .power true, .configWrite 0 1, .msix true, .msix false], r.fromHost = true) ∧
    (let s := onPart fun k => { k with d3 := true }; (s.part 0).d3 = true ∧ s.presents 0 = true) ∧ paged.presents 3 = false ∧
    (let s := onPart fun k => { k with pcieUp := false };
      (s.part 0).pcieUp = false ∧ (s.part 0).parked = [] ∧ (s.part 0).holding = [] ∧ (s.part 0).msix = []) ∧
    (paged.stage = 5 ∧ 0x18000 + 64 ≤ 2 ^ 42 ∧ paged.partOf (paDie 0x18000) = some 0 ∧
      paged.partOf (paDie (0x18000 + 64 - 1)) = some 0) := by decide +kernel
theorem witness_HostRequestsServed_vectors :
    (∀ v, (((onPart fun k => { k with pcieUp := false }).part 0).vector v).pending = false) ∧
    ∀ v, ((paged.part 0).vector v).pending = false := ⟨fun _ => rfl, fun _ => rfl⟩

/-- A transfer of one core to the next, ready. -/
def transfer (lands : Option Nat) : IndigoTransfer :=
  { id := 5, who := p0, src := 0, dsts := 2, readyAt := 0, landsAt := lands, writes := [(1, 0, 0x40, [1, 2, 3, 4])] }
/-- A cluster with transfers; its table's first word is owned by position 0 to position 1, or it has none. -/
def indigo (tab : List (BitVec 32)) (waiting flying : List IndigoTransfer) : State :=
  let s : State := { base with issue := Issue.zero }
  s.setIndigo 0 11 { Indigo.zero with table := tab, waiting := waiting, flying := flying }
/-- What its slot of this cycle carries. -/
def carries (s : State) : Option IndigoTransfer := (s.indigo 0 11).pick s.time (s.cycle % 64)

/-- A transfer that has landed: a tile store's or a copy's, to the last bytes of core 47's engine 15. -/
def landing (copy : Bool) : IndigoTransfer :=
  { transfer (some 0) with copy := copy, writes := [(47, 15, 262140, [1, 2, 3, 4])] }

/-- ScratchpadRows, StreamEngineRuns: what travels has landed in this cycle, and nothing has written there before. -/
theorem witness_landings : ∀ b ∈ [false, true], let s := indigo [] [] [landing b];
    (s.indigo 0 11).flying = [landing b] ∧ (landing b).landsAt = some 0 ∧ 0 ≤ s.cycle ∧
    262140 + [(1 : Byte), 2, 3, 4].length ≤ 262144 ∧ (s.core 0 47).written = [] := by decide +kernel

/-- A router of die 0. -/
def routed (n : Nat) (r : Router) (l : List Access) : State :=
  let s : State := { stored with accs := l, time := 512 * 105 + 7, issue := Issue.zero }
  s.setRouter 0 n r
/-- A packet at its home's router that has waited since the start. -/
def asking : Buffered := { port := 1, packet := { id := 5, n := 0, cls := .req, flits := 1 }, since := 0, place := .shared }
/-- Fifteen loads whose answers of two flits stand at their home's router. -/
def answering : List Access :=
  (List.range 15).map fun i => { access (.loadReg 5 8 false) { piece 8 [] with st := .performed } with id := i }
/-- The line 0x600 stands in its slice of the L2. -/
def sliced (s : State) : State := s.setDie 0 { s.die 0 with l2 := [(0, [0x600])] }

/-- A dirty line of a program that runs in context 0. -/
def evicting : State :=
  let s := onCtx (onPart id) fun c => { c with prog := { ProgId.zero with seq := 4, prog := 2 } }
  { s with tags := [(0x600, { part := 0, src := 0x1234, ctx := some c0, seq := 4, prog := 2 })], issue := Issue.zero }

/-- FabricAndErrors: an owned slot and a free one; a transfer due and one that is not; a packet that has
waited 64 cycles and more answers than a port has buffers for; a copy's transfer; a router that has been idle for 512 and one that will be; a line to scrub, and its clean and dirty copies in the L2; the
first correction and a later one; a dirty line of a program. -/
theorem witness_FabricAndErrors :
    (∀ tab ∈ ([[0x42], []] : List (List (BitVec 32))), let s := indigo tab [transfer none] [];
      carries s = some (transfer none) ∧ (s.indigo 0 11).lastSlot ≠ some s.cycle) ∧
    (let s := indigo [] [] [transfer (some 0)];
      (s.indigo 0 11).flying = [transfer (some 0)] ∧ (s.indigo 0 11).waiting = [] ∧ s.cycle = 0 ∧
      (transfer (some 0)).writes ≠ []) ∧
    (let s := indigo [] [] [transfer (some 6)]; (s.indigo 0 11).flying = [transfer (some 6)] ∧ s.cycle < 6) ∧
    (let s := routed 53 { Router.zero with idleFrom := 7 } [];
      ((s.die 0).router 53).down = false ∧ s.packetsAt 0 53 = [] ∧
      ((s.die 0).router 53).idleFrom + 512 * 105 ≤ s.time) ∧
    (let s := routed 53 { Router.zero with idleFrom := 8 } []; s.time < ((s.die 0).router 53).idleFrom + 512 * 105) ∧
    (let s := routed 48 { Router.zero with down := true, held := [asking] } [loadReg 5 8 false];
      ((s.die 0).router 48).down = true ∧ ((s.die 0).router 48).arrived s.time (s.packetsAt 0 48) = [asking] ∧
      asking.since + 64 * 105 ≤ s.time) ∧
    (let s := routed 48 Router.zero answering;
      (((s.die 0).router 48).arrived s.time (s.packetsAt 0 48)).length = 15 ∧
      (settleBuffers s.time [] (((s.die 0).router 48).arrived s.time (s.packetsAt 0 48))).map (·.place)
        = List.replicate 13 .shared ++ [.escape, .waiting]) ∧
    (let s := indigo [] [] [landing true];
      let s := s.setCore 0 0 { s.core 0 0 with copies := [{ runningCopy none with id := 5 }] };
      (s.indigo 0 11).flying = [landing true] ∧ (s.indigo 0 11).waiting = [] ∧ (landing true).writes ≠ [] ∧
      (landing true).copy = true ∧ (landing true).who.ctx? = some c0 ∧ s.homeOf c0 = c0 ∧
      (s.core 0 0).copies.find? (fun x => x.id = 5) = some { runningCopy none with id := 5 }) ∧
    (∀ s ∈ [base, sliced base, sliced evicting],
      paDie (64 * 0x600) = 0 ∧ paLocal (64 * 0x600) = true ∧ paMbz (64 * 0x600) = 0 ∧ s.partOf 0 = some 0 ∧
      (s.die 0).status = .running ∧ s.poisoned (64 * 0x600) = false) ∧
    (∀ s ∈ [sliced base, sliced evicting], 0x600 ∈ ngetD (s.die 0).l2 (0x600 % 2 ^ 31 % 24) []) ∧
    nget (sliced base).tags 0x600 = none ∧ (nget (sliced evicting).tags 0x600).isSome = true ∧
    (∀ a ∈ [1, 8, 10, 13], (ngetD (base.die 0).corrected a (0, none)).2 = none) ∧
    (let s := base.setDie 0 { base.die 0 with corrected := [(13, (9, some 0))] };
      ngetD (s.die 0).corrected 13 (0, none) = (9, some 0) ∧ s.time < 0 + 1000 * tickUs) ∧
    (nget evicting.tags 0x600 = some { part := 0, src := 0x1234, ctx := some c0, seq := 4, prog := 2 } ∧
      (evicting.part 0).canRecord = false ∧ (evicting.part 0).holding = [] ∧ evicting.partOf (paDie (64 * 0x600)) = some 0 ∧
      evicting.poisoned (64 * 0x600) = false ∧
      evicting.taggedContext { part := 0, src := 0x1234, ctx := some c0, seq := 4, prog := 2 } = some c0) := by decide +kernel

/-! ### States that meet the hypotheses: dies, bring-up, registers -/

/-- Partition 0 holds the module's 24 dies; some of them are held. -/
def whole (hold : BitVec 24) : State :=
  let s := onPart fun k => { k with dies := 0xFFFFFF, hold := hold }
  { { s with dies := (List.range 24).foldl (fun m d => nset m d { s.die d with inReset := false }) s.dies } with
    issue := Issue.zero }
/-- Die 23 changed. -/
def onDie (s : State) (f : Die → Die) : State := s.setDie 23 (f (s.die 23))
/-- It stands in some state of recovery. -/
def recovering (st : DieStatus) (n : Nat) : State := onDie (whole 0) fun d => { d with status := st, readmitStep := n }
/-- A command has stood in its core 47 for 100 ms. -/
def standing : State :=
  { (whole 0).setCtx ⟨23, 47, 7⟩ { Context.zero with st := .ready } with time := 100000 * tickUs }
/-- All its links are lost. -/
def cutOffDie : State :=
  { whole 0 with links := (List.range 38).filterMap fun k => if endDie k 23 then some (k, { Link.zero with closed := true }) else none }

/-- Its contexts are empty. -/
def emptyDie (s : State) : Bool := (List.range 48).all fun k => (List.range 8).all fun x => (s.ctx ⟨23, k, x⟩).st == .empty

/-- DiesContainedAndReadmitted: a die that runs, held or not, and one that is cut off, too hot, or stalled. -/
theorem witness_DiesContainedAndReadmitted :
    ((whole 0).dieLive 23 = true ∧ (whole 0).partOf 23 = some 0) ∧
    ((whole 0x800000).dieLive 23 = true ∧ (whole 0x800000).partOf 23 = some 0) ∧
    ((whole 0).stalled 23 = false ∧ (whole 0).tooHot 23 = false) ∧
    (cutOffDie.cutAway 23 = true ∧ cutOffDie.dieLive 23 = true ∧ cutOffDie.partOf 23 = some 0) := by decide +kernel
theorem witness_DiesContainedAndReadmitted_hot : let s := onDie (whole 0) fun d => { d with junction := 110 };
    s.tooHot 23 = true ∧ s.dieLive 23 = true ∧ s.partOf 23 = some 0 := by decide +kernel
theorem witness_DiesContainedAndReadmitted_stalled :
    standing.stalled 23 = true ∧ standing.dieLive 23 = true ∧ standing.partOf 23 = some 0 := by decide +kernel

/-- The same: a contained die and one at each step. -/
theorem witness_DiesContainedAndReadmitted_steps :
    (((recovering .contained 0).die 23).status = .contained ∧ emptyDie (recovering .contained 0) = true ∧
      (recovering .contained 0).partOf 23 = some 0) ∧
    (∀ n ∈ [1, 2, 4, 5, 6], ((recovering .readmitting n).die 23).status = .readmitting ∧
      ((recovering .readmitting n).die 23).readmitStep = n ∧ emptyDie (recovering .readmitting n) = true ∧
      (recovering .readmitting n).partOf 23 = some 0 ∧ (recovering .readmitting n).tooHot 23 = false) ∧
    (let s := onDie (recovering .readmitting 6) fun d => { d with junction := 110 };
      (s.die 23).readmitStep = 6 ∧ s.tooHot 23 = true) := by decide +kernel

/-- The same: a held die that a write lets start and a contained one that it holds. -/
theorem witness_DiesContainedAndReadmitted_hold :
    ((recovering .contained 0).bar0Open 0 true = true ∧ bitOf ((recovering .contained 0).part 0).dies 23 = true ∧
      (0x800000 : Word).getLsbD 23 = true ∧ (0 : Word).getLsbD 23 = false) ∧
    (let s := onDie (whole 0x800000) fun d => { d with status := .held };
      s.bar0Open 0 true = true ∧ (s.die 23).status = .held ∧ bitOf (s.part 0).hold 23 = true) := by decide +kernel

/-- A module whose bring-up has reached a stage. -/
def rising_ (n : Nat) : State := { whole 0 with stage := n }
/-- The module as two partitions of twelve dies, the first of them new. -/
def halves : List PartPlan :=
  [{ dies := [0, 1, 2, 3, 4, 5, 12, 13, 14, 15, 16, 17], windows := [], splits := [(5, 14)] },
   { dies := [6, 7, 8, 9, 10, 11, 18, 19, 20, 21, 22, 23], windows := [], splits := [] }]
/-- What the sensors report: every die at a temperature. -/
def reading (t : Nat) : ThermalReading :=
  { tin := 35, tout := 50, flow := 40, junction := List.replicate 24 t, dieW := [], hbmW := [] }

/-- ModuleBroughtUp: no power; each stage; a code of a later stage; a plan of two
partitions, with a domain and without; a reading below each limit and at it. -/
theorem witness_ModuleBroughtUp :
    State.reset.powerGood = false ∧
    (∀ n ∈ [0, 1, 3, 4], (rising_ n).powerGood = true ∧ (rising_ n).stage = n) ∧
    (∀ d, d < 24 → ((rising_ 4).partOf d).isSome = true ∧ (rising_ 4).tooHot d = false) ∧
    (rising_ 1).stage = 1 ∧
    (let s := { whole 0 with dies := [] }; s.stage = 5 ∧ s.formable halves = true ∧ ∀ d, d < 24 → s.tooHot d = false) ∧
    ((rising_ 3).stage < 5 ∧ 1 < (rising_ 3).stage ∧ (3 : BitVec 8).toNat = (rising_ 3).stage) ∧
    (let s : State := { State.reset with powerGood := true, stage := 4 };
      s.formable halves = true ∧ s.domainOk none = true ∧ s.domainOk (some (31, 31)) = true) ∧
    (∀ t ∈ [96, 100], let s := whole 0;
      s.stage = 5 ∧ s.gateAt = 0 ∧ (s.part 0).formed = true ∧ (s.part 0).capEn = false ∧
      (∀ n, n < 4 → 1 ≤ n → (s.part n).formed = false) ∧ (reading t).tin ≤ 35 ∧ 20 ≤ (reading t).flow ∧
      (∀ j ∈ (reading t).junction, j < 110) ∧ (∀ d, d < 24 → bitOf (s.part 0).dies d = true) ∧
      ((reading t).junction[23]?).getD 0 = t) ∧
    (let s : State := { whole 0 with gateAt := 1, time := 1 + 100 * tickUs }; s.gateAt + 100 * tickUs ≤ s.time) := by
  decide +kernel

/-- Launch queue 63 with 2^16 slots, written and read so far. -/
def queueAt (en : Bool) (wp rp : BitVec 32) : State :=
  onPart fun k => { k with lq := [(63, { LaunchQueue.zero with log2 := 16, en := en, wp := wp, rp := rp })] }

/-- A partition with no context at work. -/
def bare : State := { onPart (fun k => { k with lq := [] }) with ctxs := [] }
/-- An image's number given up that one core's instruction cache and window still name. -/
def dying : State :=
  let s := { onPart fun k => { k with imgDead := [9], imgDone := false } with ctxs := [] }
  s.setCore 0 47 { s.core 0 47 with cwtTag := [(0, 9)] }

/-- RegistersWritten: the register block; a queue enabled and not, its size 16 and 17, its WP a whole queue ahead and one
more; a fault queue of 2^4 and 2^3 slots, and one read past its end; an image number, again while one is given up; one that is
given up; a report that runs and one that does not, to the last 16 KiB of die 0. -/
theorem witness_RegistersWritten :
    paged.bar0Open 0 false = true ∧
    (∀ en ∈ [true, false], ((queueAt en 0 0).part 0).queue 63 = { LaunchQueue.zero with log2 := 16, en := en } ∧
      (queueAt en 0 0).bar0Open 0 false = true) ∧
    (((0x30 : Word).extractLsb' 0 5).toNat = 16 ∧ ((0x31 : Word).extractLsb' 0 5).toNat = 17 ∧
      (0x30 : Word).getLsbD 5 = true ∧ ((0x10 : Word).extractLsb' 0 5).toNat = 16 ∧ (0x10 : Word).getLsbD 5 = false) ∧
    (let rp := (((queueAt true 0 0xFFFF8000).part 0).queue 63).rp;
      (((0x00008000 : Word).extractLsb' 0 32) - rp).toNat ≤ 2 ^ 16 ∧
      2 ^ 16 < (((0x00008001 : Word).extractLsb' 0 32) - rp).toNat) ∧
    ((paged.part 0).fqEn = false ∧ ((0x24 : Word).extractLsb' 0 5).toNat = 4 ∧ ((0x23 : Word).extractLsb' 0 5).toNat = 3) ∧
    (let k := (onPart fun k => { k with fqLog2 := 4, fqWp := 16 }).part 0;
      (k.fqWp - (0 : Word).extractLsb' 0 32).toNat ≤ 2 ^ k.fqLog2.toNat ∧
      2 ^ k.fqLog2.toNat < (k.fqWp - (0xFFFFFFFF : Word).extractLsb' 0 32).toNat) ∧
    ((0x8000000000000009 : Word).getLsbD 63 = true ∧ (paged.part 0).imgDone = true ∧ (dying.part 0).imgDone = false ∧
      (9 : Word).getLsbD 63 = false) ∧
    ((dying.part 0).imgDead = [9] ∧ (dying.part 0).launches = [] ∧ dying.bar0Open 0 false = true ∧
      ((dying.core 0 47).cwtTag = [(0, 9)])) ∧
    ((0x8000001FFFFFC000 : Word).getLsbD 63 = true ∧ (paged.part 0).attRun = none ∧
      ((onPart fun k => { k with attRun := some 0x7FFFFF }).part 0).attRun ≠ none ∧
      paSpace (0x7FFFFF * 16384) = 0 ∧ paDie (0x7FFFFF * 16384) = 0 ∧ bitOf (paged.part 0).dies 0 = true ∧
      paMbz (0x7FFFFF * 16384) = 0 ∧ paged.mem.wf) ∧
    ((onPart fun k => { k with fqEn := true }).part 0).fqEn = true := by decide +kernel

/-- The same: partitions whose queues are all disabled and whose contexts are all empty. -/
theorem witness_RegistersWritten_empty :
    (∀ i, ((bare.part 0).queue i).en = false) ∧ (∀ c, (bare.ctx c).st = .empty) ∧
    (∀ c, (dying.ctx c).st ≠ .empty → (dying.ctx c).lrec.image ≠ 9) ∧ bare.bar0Open 0 false = true :=
  ⟨fun _ => rfl, fun _ => rfl, fun _ h => absurd rfl h, by decide +kernel⟩

/-! ### States that meet the hypotheses: issue -/

/-- The bundle of a word at 0x10000, as it is fetched, and what the fetch leaves. -/
def rawOf (w : BitVec 32) : Raw := { addr := 0x10000, hw := 0x00420000, words := [w], lits := [0, 0, 0, 0] }
def placedWord (w : BitVec 32) : State := State.reset.withFetchWord 32 w.toNat

/-- LiteralsAndLanes: a bundle read with no level in its loop unit, and with all six. -/
def nested (n : Nat) : State :=
  onCtx base fun c => { c with main := { c.main with loops := List.replicate n ⟨0x10000, 0x10040, 3, 5, []⟩ } }
theorem witness_LiteralsAndLanes_loops : ∀ n ∈ [0, 6], let s := nested n;
    ((s.readied p0 (s.decodeBundle p0 (rawOf 0xFC000000))).thread p0).loops.length = n := by decide +kernel

/-- A word that a part issues alone in a cycle its sequencer gives it, with more asked of the state it issues in, of the one
its fetch leaves, and of its bundle. -/
def aloneNow (w : BitVec 32) (p : PartRef) (i : Instr) (more : State → State → Bundle → Bool) : Bool :=
  match (placedWord w).grant p with
  | none => false
  | some g => match g.standing p with
    | (.clear b, u) =>
      g.canIssue p && !(g.thread p).owes && decide (g.settled p = g) && decide ((g.fetchBundle p).1 = .raw b.raw)
      && decide (b.raw = rawOf w) && (match decodeWord w with | .ok j => j == i | _ => false)
      && (match b.fates with | [.ok j] => j == i | _ => false) && b.slots.isEmpty
      && (u.decodeCheck b).isNone && ((u.readied p b).issueCheck b).isNone && more g u b
    | _ => false

/-- A bundle that stands with every hold cleared is the one fetched. -/
theorem standing_decoded {s u : State} {p : PartRef} {b : Bundle} {r : Raw} (h : s.standing p = (.clear b, u))
    (f : (s.fetchBundle p).1 = .raw r) : b = (s.fetchBundle p).2.decodeBundle p r := by
  unfold State.standing at h
  split at h <;> simp_all
  repeat' split at h
  all_goals simp_all

/-- It issues alone. -/
theorem aloneNow_alone {w : BitVec 32} {p : PartRef} {i : Instr} {more : State → State → Bundle → Bool}
    (h : aloneNow w p i more = true) :
    ∃ g u b, (placedWord w).grant p = some g ∧ g.IssuesAlone p u b w i ∧ more g u b = true := by
  unfold aloneNow at h
  split at h
  · cases h
  next g hg =>
    split at h
    next b u hs =>
      simp only [Bool.and_eq_true, Bool.not_eq_true', List.isEmpty_iff, Option.isNone_iff_eq_none, decide_eq_true_eq] at h
      obtain ⟨⟨⟨⟨⟨⟨⟨⟨⟨⟨h1, h2⟩, h3⟩, h4⟩, h5⟩, h6⟩, h7⟩, h8⟩, h9⟩, h10⟩, h11⟩ := h
      refine ⟨g, u, b, hg, ⟨h1, h2, h3, h4, standing_decoded hs h4, hs, by rw [h5]; rfl, ?_, ?_, h8, h9, h10⟩, h11⟩
      · split at h6
        next e => rw [e, eq_of_beq h6]
        · cases h6
      · split at h7
        next e => rw [e, eq_of_beq h7]
        · cases h7
    · cases h

/-- The bundle does not end the program, and its word goes on. -/
def runsOn (p : PartRef) (i : Instr) (_ u : State) (b : Bundle) : Bool :=
  !(b.header.ends && endDrops i) && (match exec i (u.atStart p b) with | .next _ => true | _ => false)
/-- What BundlesIssue asks besides. -/
def plain (p : PartRef) (g _ : State) (b : Bundle) : Bool :=
  !b.header.ends && p.ctx?.all (fun c => (g.ctx c).spare.isNone && (g.ctx c).want.isNone) && (g.thread p).loops.isEmpty
    && (g.thread p).am != 0 && (g.thread p).pend.isEmpty && (g.thread p).handler.isNone

theorem test_nop_alone : aloneNow 0xFC000000 p0 .nop (plain p0) = true := by decide +kernel
theorem test_add_alone : aloneNow 0x04C62800 p0 (.add 6 6 5 0) (runsOn p0 (.add 6 6 5 0)) = true := by decide +kernel
theorem test_lkdedup_alone :
    aloneNow 0x2C000000 (.ochre 0 0) (.lkdedup 0 0) (runsOn (.ochre 0 0) (.lkdedup 0 0)) = true := by decide +kernel

/-- StepRunsDecoded: an entry of the schedule, an empty one in either stage; words with encodings, and their phases; a
part that is given no cycle. -/
theorem witness_StepRunsDecoded :
    ({ ready with agenda := [⟨3, .powerGood⟩] } : State).agenda = [⟨3, .powerGood⟩] ∧ (ready.agenda = [] ∧ ready.stage ≠ 15) ∧
    (let s : State := { ready with stage := 15 }; s.agenda = [] ∧ s.stage = 15) ∧
    ((encodeWord (.add 6 6 5 0)).isSome = true ∧ (encodeSlot (.gshf ⟨3, 1, 0x11, 0, 0, 3, 0, 5, 2, 6, 0, 1⟩)).isSome = true) ∧
    (wordPhase (.add 6 6 5 0) ≠ 6 ∧ wordPhase (.lkdedup 0 0) ≠ 6) ∧ (ready.grant (.gang 0 0 1 false)).isNone = true := by
  decide +kernel
/-- The same: words of a gang and of an Ochre thread that issue alone and drop nothing. -/
theorem witness_StepRunsDecoded_gang : ∃ g u b, (placedWord 0x04C62800).grant p0 = some g ∧
    g.IssuesAlone p0 u b 0x04C62800 (.add 6 6 5 0) ∧ runsOn p0 (.add 6 6 5 0) g u b = true :=
  aloneNow_alone test_add_alone
theorem witness_StepRunsDecoded_ochre : ∃ g u b, (placedWord 0x2C000000).grant (.ochre 0 0) = some g ∧
    g.IssuesAlone (.ochre 0 0) u b 0x2C000000 (.lkdedup 0 0) ∧ runsOn (.ochre 0 0) (.lkdedup 0 0) g u b = true :=
  aloneNow_alone test_lkdedup_alone

/-- BundlesIssue. -/
theorem witness_BundlesIssue : ∃ g u b, (placedWord 0xFC000000).grant p0 = some g ∧
    g.IssuesAlone p0 u b 0xFC000000 .nop ∧ b.header.ends = false ∧
    (∀ c, p0.ctx? = some c → (g.ctx c).spare = none ∧ (g.ctx c).want = none) ∧ (g.thread p0).loops = [] ∧
    (g.thread p0).am ≠ 0 ∧ (g.thread p0).pend = [] ∧ (g.thread p0).handler = none := by
  obtain ⟨g, u, b, hg, ha, hm⟩ := aloneNow_alone test_nop_alone
  refine ⟨g, u, b, hg, ha, ?_⟩
  simp only [plain, p0, PartRef.ctx?, Option.all_some, Bool.and_eq_true, Bool.not_eq_true', List.isEmpty_iff,
    Option.isNone_iff_eq_none, bne_iff_ne, ne_eq] at hm
  obtain ⟨⟨⟨⟨⟨h1, h2, h3⟩, h4⟩, h5⟩, h6⟩, h7⟩ := hm
  exact ⟨h1, fun c h => by cases h; exact ⟨h2, h3⟩, h4, h5, h6, h7⟩

/-- Whether a step goes on. -/
def goesOn : Host.Outcome State Fault Refusal → Bool
  | .next _ => true
  | _ => false

/-- CanonicalKept: memory that lists bytes, and a step that goes on from there. -/
theorem witness_CanonicalKept : ready.Canonical ∧ ready.mem ≠ [] ∧ goesOn (step ready) = true := by
  refine ⟨?_, by decide +kernel, by decide +kernel⟩
  unfold State.Canonical
  decide +kernel

/-- EncodingsRoundTrip: a word with every field at its last value, a slot, and the words and slots they come from. -/
theorem witness_EncodingsRoundTrip :
    (WellFormed (.add 31 31 31 0) ∧ encodeWord (.add 31 31 31 0) = some 0x07FFF800 ∧
      decodeWord 0x07FFF800 = .ok (.add 31 31 31 0)) ∧
    (WellFormed (.gshf ⟨3, 1, 0x11, 0, 0, 3, 0, 5, 2, 6, 0, 1⟩) ∧
      encodeSlot (.gshf ⟨3, 1, 0x11, 0, 0, 3, 0, 5, 2, 6, 0, 1⟩) = some 0x03310C0050418103 ∧
      decodeSlot .xf 0x03310C0050418103 = .ok (some (.gshf ⟨3, 1, 0x11, 0, 0, 3, 0, 5, 2, 6, 0, 1⟩))) :=
  ⟨⟨rfl, by decide, rfl⟩, rfl, by decide, rfl⟩

/-! ### Words written out field by field from R96 to R100, slots from R87, and what they decode to -/

/-- Format R: major, rd, ra, rb, literal select, function. -/
theorem test_decode_integer :
    decodeWord (0b000001#6 ++ 3#5 ++ 4#5 ++ 5#5 ++ 0#3 ++ 0x01#8) = .ok (.sub 3 4 5 0) ∧
    decodeWord (0b000001#6 ++ 31#5 ++ 1#5 ++ 0#5 ++ 4#3 ++ 0x15#8) = .ok (.sha 31 1 0 4) ∧
    decodeWord (0b000001#6 ++ 2#5 ++ 30#5 ++ 0#5 ++ 0#3 ++ 0x16#8) = .ok (.clz 2 30) ∧
    decodeWord (0b000001#6 ++ 2#5 ++ 3#5 ++ 4#5 ++ 0#3 ++ 0x47#8) = .ok (.lea 2 3 4 0 3) ∧
    decodeWord (0b000001#6 ++ 2#5 ++ 3#5 ++ 1#5 ++ 1#3 ++ 0x00#8) = .error .reservedField ∧
    decodeWord (0b000001#6 ++ 2#5 ++ 3#5 ++ 0#5 ++ 5#3 ++ 0x00#8) = .error .reservedField ∧
    decodeWord (0b000001#6 ++ 2#5 ++ 3#5 ++ 4#5 ++ 0#3 ++ 0x09#8) = .error .undefined := ⟨rfl, rfl, rfl, rfl, rfl, rfl, rfl⟩

/-- Format I. -/
theorem test_decode_immediate :
    decodeWord (0b000010#6 ++ 1#5 ++ 2#5 ++ 0x8000#16) = .ok (.addi 1 2 0x8000) ∧
    decodeWord (0b001000#6 ++ 1#5 ++ 2#5 ++ 63#16) = .ok (.shai 1 2 63) ∧
    decodeWord (0b001000#6 ++ 1#5 ++ 2#5 ++ 64#16) = .error .reservedField := ⟨rfl, rfl, rfl⟩

/-- Format M, plain and ordered. -/
theorem test_decode_memory :
    decodeWord (0b010100#6 ++ 7#5 ++ 8#5 ++ 15#4 ++ 0xFFF#12) = .ok (.ldbs 7 8 15 0xFFF) ∧
    decodeWord (0b011010#6 ++ 7#5 ++ 8#5 ++ 1#4 ++ 0x800#12) = .ok (.stw 7 8 1 0x800) ∧
    decodeWord (0b010111#6 ++ 7#5 ++ 8#5 ++ 2#4 ++ 4#3 ++ 6#3 ++ 63#6) = .ok (.loadAcquire 7 8 2 4 6 63) ∧
    decodeWord (0b011100#6 ++ 7#5 ++ 8#5 ++ 2#4 ++ 1#3 ++ 3#3 ++ 5#6) = .ok (.storeRelease 7 8 2 1 3 5) ∧
    decodeWord (0b011100#6 ++ 7#5 ++ 8#5 ++ 2#4 ++ 1#3 ++ 4#3 ++ 5#6) = .error .reservedField ∧
    decodeWord (0b010111#6 ++ 7#5 ++ 8#5 ++ 2#4 ++ 5#3 ++ 0#3 ++ 0#6) = .error .reservedField :=
  ⟨rfl, rfl, rfl, rfl, rfl, rfl⟩

/-- Format A; fences. -/
theorem test_decode_atomics_and_fences :
    decodeWord (0b101010#6 ++ 1#5 ++ 2#5 ++ 3#5 ++ 4#4 ++ 2#3 ++ 1#2 ++ 0#1 ++ 0#1) = .ok (.amocas 1 2 3 4 2 1 0) ∧
    decodeWord (0b101001#6 ++ 1#5 ++ 2#5 ++ 3#5 ++ 4#4 ++ 1#3 ++ 0#2 ++ 1#1 ++ 0#1) = .error .reservedField ∧
    decodeWord (0b101001#6 ++ 1#5 ++ 2#5 ++ 3#5 ++ 4#4 ++ 0#3 ++ 0#2 ++ 1#1 ++ 1#1) = .error .reservedField ∧
    decodeWord (0b110000#6 ++ 0#10 ++ 0#13 ++ 4#3) = .ok (.fence 4) ∧
    decodeWord (0b110001#6 ++ 0#10 ++ 0#5 ++ 6#4 ++ 5#4 ++ 3#3) = .ok (.fencex 6 5 3) ∧
    decodeWord (0b110001#6 ++ 0#10 ++ 0#5 ++ 7#4 ++ 5#4 ++ 3#3) = .error .reservedField := ⟨rfl, rfl, rfl, rfl, rfl, rfl⟩

/-- Format B, and the control group. -/
theorem test_decode_control :
    decodeWord (0b110010#6 ++ 0#5 ++ 0x1FFFFF#21) = .ok (.br 0x1FFFFF) ∧
    decodeWord (0b110010#6 ++ 1#5 ++ 0x1FFFFF#21) = .error .reservedField ∧
    decodeWord (0b110101#6 ++ 9#5 ++ 1#21) = .ok (.bnz 9 1) ∧
    decodeWord (0b111011#6 ++ 9#5 ++ 0x100000#21) = .ok (.loop 9 0x100000) ∧
    decodeWord (0b111010#6 ++ 3#5 ++ 2#5 ++ 0#5 ++ 0#3 ++ 0x01#8) = .ok (.jrl 3 2) ∧
    decodeWord (0b111010#6 ++ 3#5 ++ 15#5 ++ 4#5 ++ 0#3 ++ 0x11#8) = .ok (.rdlane 3 15 4 0) ∧
    decodeWord (0b111010#6 ++ 3#5 ++ 16#5 ++ 4#5 ++ 0#3 ++ 0x11#8) = .error .reservedField ∧
    decodeWord (0b111010#6 ++ 0#5 ++ 0#5 ++ 4#5 ++ 0#3 ++ 0x13#8) = .ok (.setam 4 0) := ⟨rfl, rfl, rfl, rfl, rfl, rfl, rfl, rfl⟩

/-- The synchronisation and system groups. -/
theorem test_decode_sync_and_system :
    decodeWord (0b111101#6 ++ 0#5 ++ 3#5 ++ 0#8 ++ 0x01#8) = .ok (.barwt 3) ∧
    decodeWord (0b111101#6 ++ 0#5 ++ 4#5 ++ 0#8 ++ 0x01#8) = .error .reservedField ∧
    decodeWord (0b111101#6 ++ 2#5 ++ 0#5 ++ 5#5 ++ 0#3 ++ 0x02#8) = .ok (.waitc 2 5 0) ∧
    decodeWord (0b111111#6 ++ 5#5 ++ 6#5 ++ 6#4 ++ 0x023#12) = .ok (.csrc 5 6 0x023) ∧
    decodeWord (0b111111#6 ++ 5#5 ++ 6#5 ++ 7#4 ++ 0#12) = .ok (.ldcwt 5 6) ∧
    decodeWord (0b111111#6 ++ 0#5 ++ 0#5 ++ 2#4 ++ 0#12) = .ok .rte ∧
    decodeWord (0b111111#6 ++ 0#5 ++ 0#5 ++ 8#4 ++ 0#12) = .error .undefined := ⟨rfl, rfl, rfl, rfl, rfl, rfl, rfl⟩

/-- The words of Ochre cores (R137). -/
theorem test_decode_ochre :
    decodeWord (0b001010#6 ++ 1#5 ++ 2#5 ++ 0#8 ++ 64#8) = .ok (.lkfetch 1 2 64) ∧
    decodeWord (0b001011#6 ++ 1#5 ++ 2#5 ++ 0#8 ++ 1#8) = .ok (.lkdedupClear 1 2) ∧
    decodeWord (0b001100#6 ++ 1#5 ++ 2#5 ++ 3#5 ++ 0#5 ++ 2#2 ++ 8#4) = .ok (.lkpool 1 2 3 2 8) ∧
    decodeWord (0b001101#6 ++ 0#5 ++ 2#5 ++ 3#5 ++ 0#10 ++ 1#1) = .ok (.lkhand 2 3 1) := ⟨rfl, rfl, rfl, rfl⟩

/-- Format C. -/
theorem test_decode_commands :
    decodeWord (0b111110#6 ++ 1#5 ++ 2#5 ++ 0#4 ++ 0x02#6 ++ 15#6) = .ok (.mtern 1 2 15) ∧
    decodeWord (0b111110#6 ++ 1#5 ++ 2#5 ++ 0#4 ++ 0x08#6 ++ (0#2 ++ 1#1 ++ 7#3)) = .ok (.qres 1 2 1 7) ∧
    decodeWord (0b111110#6 ++ 1#5 ++ 2#5 ++ 0#4 ++ 0x12#6 ++ (3#2 ++ 1#1 ++ 7#3)) = .ok (.cpyy 1 2 3 1 7) ∧
    decodeWord (0b111110#6 ++ 1#5 ++ 2#5 ++ 0#4 ++ 0x18#6 ++ (0#1 ++ 7#3 ++ 1#2)) = .ok (.gthrOb 1 2 7) ∧
    decodeWord (0b111110#6 ++ 1#5 ++ 2#5 ++ 9#4 ++ 0x2C#6 ++ 0#6) = .ok (.launch 1 2 9) ∧
    decodeWord (0b111110#6 ++ 1#5 ++ 2#5 ++ 1#4 ++ 0x00#6 ++ 0#6) = .error .reservedField ∧
    decodeWord (0b111110#6 ++ 1#5 ++ 2#5 ++ 0#4 ++ 0x03#6 ++ 0#6) = .error .undefined := ⟨rfl, rfl, rfl, rfl, rfl, rfl, rfl⟩

/-- A slot from its fields in the order of R87. -/
abbrev slotOf (fill : BitVec 4) (lit : BitVec 3) (md : BitVec 5) (sat : BitVec 1) (rm : BitVec 2) (kind : BitVec 3)
    (c b a d : BitVec 7) (sh : BitVec 2) (fmt : BitVec 4) (op : BitVec 8) : BitVec 64 :=
  0#4 ++ fill ++ lit ++ md ++ sat ++ rm ++ kind ++ c ++ b ++ a ++ d ++ sh ++ fmt ++ op

/-- Slots of each place: a fused multiply in both clusters, a conversion, a scratchpad load, an atomic, an exchange, an
engine scalar and a condition. -/
theorem test_decode_slots :
    decodeSlot .va (slotOf 0 0 0 0 1 0 0x40 4 3 2 1 1 0x04) = .ok (some (.vfma .a ⟨0, 0, 0, 0, 1, 0, 0x40, 4, 3, 2, 1, 1⟩)) ∧
    decodeSlot .vb (slotOf 0 0 0 0 1 0 0x40 4 3 2 1 1 0x04) = .ok (some (.vfma .b ⟨0, 0, 0, 0, 1, 0, 0x40, 4, 3, 2, 1, 1⟩)) ∧
    decodeSlot .va (slotOf 0 0 12 1 0 2 0 0 15 2 0 8 0x20) = .ok (some (.vcvt .a ⟨0, 0, 12, 1, 0, 2, 0, 0, 15, 2, 0, 8⟩)) ∧
    decodeSlot .mem (slotOf 0 2 17 0 0 0 0 5 4 9 0 6 0x01) = .ok (some (.lds ⟨0, 2, 17, 0, 0, 0, 0, 5, 4, 9, 0, 6⟩)) ∧
    decodeSlot .mem (slotOf 6 0 0 0 2 0 3 5 4 9 0 6 0x0B) = .ok (some (.vatom ⟨6, 0, 0, 0, 2, 0, 3, 5, 4, 9, 0, 6⟩)) ∧
    decodeSlot .xf (slotOf 0 1 0 0 0 1 0 0 5 6 0 0 0x22) = .ok (some (.eadd ⟨0, 1, 0, 0, 0, 1, 0, 0, 5, 6, 0, 0⟩)) ∧
    decodeSlot .xf (slotOf 0 0 16 0 0 0 0 0 5 3 0 12 0x28) = .ok (some (.anyk ⟨0, 0, 16, 0, 0, 0, 0, 0, 5, 3, 0, 12⟩)) :=
  ⟨rfl, rfl, rfl, rfl, rfl, rfl, rfl⟩

/-! ### Terms that are not well formed, one for each check -/

/-- Literal selects, scopes, sizes, orders, paths, counters and barriers out of range. -/
theorem test_ill_formed_words :
    [Instr.add 1 2 1 1, .add 1 2 0 5, .movl 1 0, .movl 1 5, .movlD 1 4, .loadAcquire 1 2 0 5 0 0, .loadAcquire 1 2 0 0 7 0,
      .storeRelease 1 2 0 0 4 0, .storeRelease 1 2 0 5 0 0, .amoadd 1 2 3 0 1 0 0, .amoadd 1 2 3 0 5 1 0, .fence 5,
      .fencex 7 0 0, .fencex 0 7 0, .fencex 0 0 5, .bararv 4, .barwt 4, .waitc 4 0 0, .waitc 0 1 1, .slotwait 0 0 5 0,
      .slotsig 0 5 0, .lkpool 1 2 3 3 1, .lkpool 1 2 3 0 0, .qcvt 1 2 3 0].all (fun i => !i.wf) = true := by decide +kernel

/-- A slot that is well formed for VADD. -/
def addSlot : Slot := ⟨0, 0, 0, 0, 0, 0, 0, 3, 2, 1, 0, 1⟩
/-- Fields unused but set, kinds, literals, formats, modifiers and registers that an opcode does not take. -/
theorem test_ill_formed_slots : (Instr.vadd .a addSlot).wf = true ∧
    [Instr.vadd .a { addSlot with fill := 1 }, .vadd .a { addSlot with srcc := 1 }, .vadd .a { addSlot with kind := 4 },
      .vadd .a { addSlot with kind := 1, srcb := 0 }, .vadd .a { addSlot with lit := 1 },
      .vadd .a { addSlot with lit := 5, kind := 1, srcb := 0 }, .vadd .a { addSlot with md := 1 },
      .vadd .a { addSlot with fmt := 4 }, .vadd .a { addSlot with fmt := 13 }, .vadd .a { addSlot with sat := 1 },
      .vadd .a { addSlot with fmt := 6, rm := 1 }, .vadd .a { addSlot with kind := 2, srca := 16 },
      .vadd .a { addSlot with kind := 3, srcb := 16 }, .vadd .a { addSlot with kind := 3, srcb := 0x43 },
      .vabs .a { addSlot with kind := 1 }, .vcvt .a { addSlot with srcb := 0, md := 13 },
      .gshf ⟨7, 0, 0x11, 0, 0, 3, 0, 5, 2, 6, 0, 1⟩, .gshf ⟨6, 0, 0x11, 0, 0, 3, 0, 5, 2, 6, 0, 6⟩,
      .lds ⟨0, 0, 2, 0, 0, 0, 0, 5, 4, 9, 0, 6⟩, .ldo ⟨0, 0, 0, 0, 0, 0, 0, 8, 4, 9, 0, 6⟩,
      .anyk ⟨0, 0, 0, 0, 0, 0, 0, 0, 5, 4, 0, 12⟩, .vatom ⟨7, 0, 0, 0, 0, 0, 3, 5, 4, 0, 0, 6⟩,
      .vatom ⟨6, 0, 0, 0, 1, 0, 3, 5, 4, 0, 0, 6⟩, .vatom ⟨3, 0, 0, 0, 0, 0, 3, 5, 4, 0, 0, 1⟩].all (fun i => !i.wf) = true := by
  decide +kernel

/-- Headers that break R106 step 1: reserved bits, five words, five literals, a reference without T. -/
theorem test_ill_formed_headers : [(0x08000000 : BitVec 32), 0x000A0000, 0x00500000, 0x00000001].all
    (fun w => !(decodeHeader w).ok) = true := by decide

/-! ### Steps on small states; values worked out by hand from the rules -/

/-- What a register of the issuing part holds after an instruction. -/
def after (i : Instr) (s : State) (n : Nat) : Option Word :=
  match exec i s with
  | .next t => some (t.thr.reg n)
  | _ => none
/-- Two operands, and engines 0 and 1 at work. -/
def withPair (a b : Word) : State := opened [(1, a), (2, b)] 3

/-- R110: sums wrap. -/
theorem test_add_wraps : after (.add 3 1 2 0) (withPair 0xFFFFFFFFFFFFFFFF 2) 3 = some 1 := by decide +kernel
/-- s0 takes nothing. -/
theorem test_s0_stays_zero : after (.add 0 1 2 0) (withPair 5 2) 0 = some 0 := by decide +kernel
/-- R114: a quotient by zero is all ones, unsigned and signed; its remainder is the dividend. -/
theorem test_quotients_by_zero :
    after (.divn 3 1 2 0) (withPair 7 0) 3 = some 0xFFFFFFFFFFFFFFFF ∧
    after (.remn 3 1 2 0) (withPair 7 0) 3 = some 7 := by decide +kernel
/-- A signed shift of a negative number, and a literal sign-extended as operand. -/
theorem test_shift_and_literal :
    after (.sha 3 1 2 0) (withPair 0x8000000000000000 63) 3 = some 0xFFFFFFFFFFFFFFFF ∧
    after (.add 3 1 0 2) (withPair 1 0) 3 = some 0xFFFFFFFF80000002 := by decide +kernel
/-- A signed comparison and an unsigned one. -/
theorem test_compares :
    after (.cmplt 3 1 2 0) (withPair 0xFFFFFFFFFFFFFFFF 1) 3 = some 1 ∧
    after (.cmpltn 3 1 2 0) (withPair 0xFFFFFFFFFFFFFFFF 1) 3 = some 0 := by decide +kernel
/-- The high half of a product of two numbers below zero, signed and not. -/
theorem test_high_products :
    after (.mulh 3 1 2 0) (withPair 0xFFFFFFFFFFFFFFFF 0xFFFFFFFFFFFFFFFF) 3 = some 0 ∧
    after (.mulhn 3 1 2 0) (withPair 0xFFFFFFFFFFFFFFFF 0xFFFFFFFFFFFFFFFF) 3 = some 0xFFFFFFFFFFFFFFFE := by decide +kernel

/-- A trap whose number is 7: cause 0xBF, the next bundle in TRAPPC, the handler (R151). -/
theorem test_trap_enters_handler :
    (match exec (.trap 7) base with
      | .next t => t.thr.pc == 0x20000 && t.thr.trappc == 0x10018 && t.thr.trapcause.extractLsb' 0 8 == 0xBF
      | _ => false) = true := by decide +kernel
end Sys2Proof.Tests
end

section
/-!
PROOFS. The module: what it holds at reset (O59); two states against the statements on the host's requests (O50) and on
bring-up (O53).
-/
namespace Sys2Proof.Machine

/-! ### Reset: nothing is held, so every part of the state reads as its zero -/

@[simp] theorem State.reset_die (d : Nat) : State.reset.die d = Die.zero := rfl
@[simp] theorem State.reset_core (d c : Nat) : State.reset.core d c = Core.zero := rfl
@[simp] theorem State.reset_ctx (r : CtxRef) : State.reset.ctx r = Context.zero := rfl
@[simp] theorem State.reset_link (l : Nat) : State.reset.link l = Link.zero := rfl
@[simp] theorem State.reset_part (p : Nat) : State.reset.part p = Partition.zero := rfl
@[simp] theorem Partition.zero_queue (n : Nat) : Partition.zero.queue n = LaunchQueue.zero := rfl
theorem State.reset_canonical : State.reset.Canonical := rfl

/-- Settles O59: dies, cores, contexts, links and partitions are read off the zeros of their maps. -/
theorem resetState : Obligations.ResetState := by
  unfold Obligations.ResetState
  dsimp only
  refine ⟨rfl, rfl, rfl, rfl, State.reset_canonical, fun d => ?dies, fun d c => ?cores, fun r => ?contexts,
    fun l => ?links, fun p => ?partitions⟩
  case dies => rw [State.reset_die]; exact ⟨rfl, rfl, rfl, rfl⟩
  case cores => rw [State.reset_core]; exact ⟨rfl, rfl, rfl⟩
  case contexts => rw [State.reset_ctx]; exact ⟨rfl, rfl, rfl, rfl, rfl⟩
  case links => rw [State.reset_link]; exact ⟨rfl, rfl, rfl⟩
  case partitions =>
    simp only [State.reset_part, Partition.zero_queue]
    simp [Partition.zero, LaunchQueue.zero]

/-! ### Another module's read, where no port of the partition serves (R321, R409) -/

/-- Whether some Airufold port of a partition can be reached and is not retired. -/
def State.portServes (s : State) (part : Nat) : Bool :=
  (List.range 32).any fun port => s.portIn part port && (s.portRetired port).isNone

/-- Another module's read of a partition that no port serves is aborted, whatever it asks for. -/
theorem airufoldInboundRequest_read_aborted (s : State) (a n : Nat) (h : s.portServes (s.partN (paDie a)) = false) :
    exec (.airufoldInboundRequest (.read a n)) s = .next { s with responses := s.responses ++ [(none, false)] } := by
  unfold State.portServes at h
  show execAirufoldInboundRequest (.read a n) s = _
  simp [execAirufoldInboundRequest, HostRequest.addr, State.serveOutside, h]

/-- A Ready module whose one partition holds its 24 dies, all 32 of its Airufold ports retired. -/
def portsRetired : State :=
  { State.reset with
    powerGood := true, stage := 5
    dies := (List.range 24).map fun d => (d, { Die.zero with inReset := false })
    parts := [(0, { Partition.zero with formed := true, dies := 0xFFFFFF })]
    ports := (List.range 32).map fun port => (port, { retiredAt := some 0 }) }

/-- Refutes O50 in its last clause, which asks for no port to come in by: with every port of the partition retired, another
module's read of its first byte is aborted, not answered with the byte. -/
theorem not_hostRequestsServed : ¬ Obligations.HostRequestsServed := by
  unfold Obligations.HostRequestsServed
  intro h
  obtain ⟨-, -, -, -, -, -, -, -, -, inbound⟩ := h portsRetired 0 (by decide)
  have answered := inbound 0 1 0 rfl (by decide) (by decide) (by decide +kernel) (by decide +kernel)
  rw [airufoldInboundRequest_read_aborted portsRetired 0 1 (by decide +kernel)] at answered
  have responses := congrArg State.responses (Host.Outcome.next.inj answered)
  simp at responses

/-! ### A partition number that is not formed but is marked as resetting (R30, R405) -/

/-- The module as one partition. -/
def wholePlan : List PartPlan := [{ dies := List.range 24, windows := [], splits := [] }]

/-- Bring-up at the forming of partitions, none formed yet, number 0 marked as resetting. -/
def staleReset : State :=
  { State.reset with powerGood := true, stage := 4, parts := [(0, { Partition.zero with resetting := true })] }

/-- The partition that the plan forms there is marked as resetting still: State.formPart starts from the number's registers
as they stand, and clears the mark only of a number that is formed. -/
theorem staleReset_formed_resetting : (match exec (.partitionForm ⟨wholePlan, none⟩) staleReset with
    | .next t => (t.part 0).resetting
    | _ => false) = true := by decide +kernel

/-- Refutes O53 in its clause on plans, which says nothing of numbers without a partition: one that is marked as resetting
keeps the mark as the plan forms it. -/
theorem not_moduleBroughtUp : ¬ Obligations.ModuleBroughtUp := by
  unfold Obligations.ModuleBroughtUp
  intro h
  obtain ⟨-, -, -, -, -, forms, -⟩ := h staleReset
  obtain ⟨t, step, -, -, -, formed, -⟩ := forms wholePlan none (by decide +kernel) rfl (by intro ready; cases ready)
  obtain ⟨-, -, cleared⟩ := formed 0 _ rfl
  have marked := staleReset_formed_resetting
  rw [step] at marked
  simp [cleared] at marked

end Sys2Proof.Machine
end
